-- ==== Sys2Proof/Word.lean ====
section
/-! DEFINITION. The word types of the block (R8, R9, R10 of 00_scope.md): every value is an unsigned bit pattern of a
stated width, and BitVec's own operations are the arithmetic modulo 2^32 of R9 (`+`, `-`, `^^^`, `&&&`, `|||`, the
logical `>>>` and the truncating `<<<`). -/

namespace Sys2Proof

/-- `u32` (R8): the width of every register, of the seed and of the result (R6). -/
abbrev Word := BitVec 32

/-- `u8` (R8): a message byte, unsigned before any shift (R10). -/
abbrev Byte := BitVec 8

/-- A byte offset into the 64-byte register window, 0x00 to 0x3F (R50 of 20_memory.md). -/
abbrev Offset := BitVec 6

/-- `zext_32` of a byte (R8, R10). -/
abbrev zextByte (b : Byte) : Word := b.setWidth 32

end Sys2Proof
end

