-- ==== Sys2Proof/Config.lean ====
section
/-! DEFINITION. What is fixed for the block (R6 of 00_scope.md), and the free values of `undefined` (R11, R13). -/

namespace Sys2Proof.Config

/-- GOLDEN, the initial value of `A` and `B` (R6, R101). -/
def golden : Word := 0x9E3779B9#32

/-- Bytes absorbed by one BLOCK (R6). -/
def blockBytes : Nat := 12

/-- The most tail bytes FINAL takes (R6, R72). -/
def maxTail : Nat := 11

/-- Bytes of the register window (R6, R50). `BASE` is a multiple of it (R7). -/
def windowBytes : Nat := 64

/-- Where an `undefined` value (R11) is used: a register or a latched operand that holds no written value, or the
answer of a host read. -/
inductive Source where
  | accA | accB | accC | len
  | operand0 | operand1 | operand2
  | readback
  deriving DecidableEq, Repr

/-- The free value of an `undefined` use (R11, R13: "the hardware may return as any bits"): the bits that the block with
its window at `base` gets at its n-th use, at this place. It has no body, so nothing can be proved of a value of it. That
the bits depend on nothing but the base, the count and the place is the model's choice (log 2, DESIGN CHOICE): blocks with
different bases get bits that nothing relates, while two uses that agree in all three, in two states compared, get the
same bits. -/
opaque undefinedBits (base n : Nat) (place : Source) : Word

end Sys2Proof.Config
end

