-- ==== Sys2Proof/Syntax.lean ====
section
/-! DEFINITION. The commands of the block (spec/opcode_table.json, R71 of 30_encoding.md), its register names (R51 of
20_memory.md) and what reaches it from outside: the host's accesses (R81) and the platform's reset (R230). -/

namespace Sys2Proof

/-- A command: one constructor per row of spec/opcode_table.json. -/
inductive Instr where
  /-- INIT, start a hash with a seed (R143). -/
  | init
  /-- BLOCK, absorb one 12-byte block (R146). -/
  | block
  /-- FINAL rem, fold in the length and the 0 to 11 tail bytes (R148). `rem` is the 4-bit field REM (R72). -/
  | final (rem : BitVec 4)
  deriving DecidableEq, Repr

/-- The ten registers of the window (R51). -/
inductive RegName where
  | cmd | data0 | data1 | data2 | status | result | len | accA | accB | accC
  deriving DecidableEq, Repr

/-- What reaches the block from outside, one item per step. -/
inductive Input where
  /-- A host write of `value` with `width` bits at the bus byte address `addr` (R170). Where `width` is not 32 the write
  has no effect that depends on the value, so 32 bits of it are enough (log 12). -/
  | write (addr : Nat) (value : Word) (width : Nat)
  /-- A host read of `width` bits at the bus byte address `addr` (R171). -/
  | read (addr : Nat) (width : Nat)
  /-- POLL (R81): read STATUS again and again until the word read has `BUSY = 0`. -/
  | poll
  /-- The platform's reset input (R230). -/
  | reset
  deriving DecidableEq, Repr

/-- The two agents of one block (R12). The platform's reset moves in the host's turns (log 22). -/
inductive Agent where
  | host | core
  deriving DecidableEq, Repr

end Sys2Proof
end

