-- ==== Sys2Proof/WellFormed.lean ====
section
/-! DEFINITION. Which commands are well formed: those that have an encoding (R72, R74 of 30_encoding.md). -/

namespace Sys2Proof

/-- A command is well formed when its fields can be encoded: `rem` of FINAL is 0 to 11, and 12 to 15 are illegal (R72).
INIT and BLOCK have no field. -/
def Instr.wf : Instr → Bool
  | .init => true
  | .block => true
  | .final rem => decide (rem.toNat ≤ Config.maxTail)

end Sys2Proof
end

