-- ==== Sys2Proof/Decode.lean ====
section
/-! DEFINITION. Decoding and encoding of the command word (R70 to R75 of 30_encoding.md). `decode` is total on the 2^32
words and rejects an illegal word by the reason R201 (60_exceptions.md) lists; the block records one code for all of
them, ILLEGAL_CMD. -/

namespace Sys2Proof

/-- Why a word is ILLEGAL: the four cases of R201 (60_exceptions.md). -/
inductive IllegalWord where
  /-- A reserved bit, [7:4] or [31:12], is set (R73). -/
  | reservedBits
  /-- OP is 0 or 4 to 15 (R71). -/
  | reservedOp
  /-- REM is not 0 with INIT or BLOCK (R72). -/
  | remNotZero
  /-- REM is 12 to 15 with FINAL (R72). -/
  | remTooLarge
  deriving DecidableEq, Repr

/-- OP, bits [3:0] (R70). -/
def opField (w : Word) : BitVec 4 := w.extractLsb' 0 4

/-- REM, bits [11:8] (R70). -/
def remField (w : Word) : BitVec 4 := w.extractLsb' 8 4

/-- The reserved bits [7:4] and [31:12] are all 0 (R70, R73). -/
def reservedClear (w : Word) : Bool := w &&& 0xFFFFF0F0#32 == 0#32

/-- The name of the reason a word that R75 does not accept is ILLEGAL (R201). -/
def illegalReason (w : Word) : IllegalWord :=
  if reservedClear w then
    if opField w = 1#4 ∨ opField w = 2#4 then .remNotZero
    else if opField w = 3#4 then .remTooLarge
    else .reservedOp
  else .reservedBits

/-- `Decode(w)` of R75: the whole word must match (R74). -/
def decode (w : Word) : Except IllegalWord Instr :=
  if w = 0x00000001#32 then .ok .init
  else if w = 0x00000002#32 then .ok .block
  else if w &&& 0xFFFFF0FF#32 = 0x00000003#32 ∧ (remField w).toNat ≤ Config.maxTail then
    .ok (.final (remField w))
  else .error (illegalReason w)

/-- The command word of a command, from the table of R74. -/
def encode : Instr → Word
  | .init => 0x00000001#32
  | .block => 0x00000002#32
  | .final rem => 0x00000003#32 ||| (rem.setWidth 32 <<< 8)

/-- The decoder on an opcode-table word of `nbits` bits: a command word has 32 bits and no other length (R70), and the
bits above `nbits` are 0. -/
def decodeTableWord (nbits w : Nat) : Option Instr :=
  let v := w % 2 ^ nbits
  if v < 2 ^ 32 then
    match decode (BitVec.ofNat 32 v) with
    | .ok i => some i
    | .error _ => none
  else none

end Sys2Proof
end

