-- ==== Sys2Proof/Machine/State.lean ====
section
/-! DEFINITION. The state of one block (10_state.md), the reasons a step can stop, and the state after reset (R37). The
block has no memory (R50 of 20_memory.md) and no program counter (R24). -/

namespace Sys2Proof.Machine

/-- A 32-bit register with the mark of R34: written (it holds a `u32`) or unwritten. The bits of an unwritten register
are never used: every use goes through `State.valueOf` or `Reg.read?`, which answer a free value or `undefined`. -/
structure Reg where
  bits : Word
  written : Bool
  deriving DecidableEq, Repr

/-- PHASE (R25): 0 IDLE, 1 ACTIVE, 2 DONE. Value 3 is never held, so it has no name (log 15). -/
inductive Phase where
  | idle | active | done
  deriving DecidableEq, Repr

/-- ERRCODE (R29, R200 of 60_exceptions.md): codes 0 to 4. Codes 5 to 15 are never recorded, so they have no name
(log 15). -/
inductive ErrorCode where
  | noError | illegalCmd | busy | sequence | badAccess
  deriving DecidableEq, Repr

/-- PEND (R27), the pending-command latch: the decoded command (`op` and `rem`), none when it is empty, and the three
latched operands, each `undefined` when it was latched from an unwritten DATA register (R34, R142). -/
structure Pend where
  cmd : Option Instr
  d0 : Reg
  d1 : Reg
  d2 : Reg
  deriving DecidableEq, Repr

/-- What a host read of the window answered (R171): a value, or `undefined`. The hardware then returns some bits, which
here are a free value (log 2). -/
inductive ReadData where
  | value (v : Word)
  | undefined (bits : Word)
  deriving DecidableEq, Repr

/-- Everything the spec gives one block, then the model's own fields (log 5, log 6, log 9, log 2). -/
structure State where
  /-- Accumulator `A` (R20). -/
  a : Reg
  /-- Accumulator `B` (R20). -/
  b : Reg
  /-- Accumulator `C` (R20). -/
  c : Reg
  /-- `LEN`, the byte counter (R23). -/
  len : Reg
  /-- `DATA[0]` (R28). -/
  data0 : Reg
  /-- `DATA[1]` (R28). -/
  data1 : Reg
  /-- `DATA[2]` (R28). -/
  data2 : Reg
  /-- `PHASE` (R25). -/
  phase : Phase
  /-- `BUSY` (R26). -/
  busy : Bool
  /-- `PEND` (R27). -/
  pend : Pend
  /-- `ERR` (R29). -/
  err : Bool
  /-- `ERRCODE` (R29). -/
  errCode : ErrorCode
  /-- The fault mark of R212 (60_exceptions.md). -/
  mark : Bool
  /-- `BASE` (R7, R50): where the platform placed this block's window. No step changes it. -/
  base : Nat
  /-- The model's own: the accesses still to come, in the host's program order (R59), and the platform's resets. -/
  inputs : List Input
  /-- The model's own: who moves next, one entry for each step taken while both agents can move (R12); LATENCY of R7. -/
  turns : List Agent
  /-- The model's own: what the last host read of the window answered. -/
  lastRead : Option ReadData
  /-- The model's own: how many `undefined` uses have drawn a free value. -/
  draws : Nat
  deriving DecidableEq, Repr

/-- Why the machine stops. The block itself never stops: its errors are recorded and it goes on (R205, R211). -/
inductive Fault where
  /-- Raised by the core's turn when `BUSY = 1` and PEND is empty. R26 says that exactly one command is pending while
  `BUSY = 1`, so no run reaches it (log 13). Safe: the model stops where the spec describes no state. -/
  | emptyLatch
  deriving DecidableEq, Repr

/-- Why an instruction is not executed. -/
inductive Refusal where
  /-- Raised by `exec` for an instruction that has no meaning yet; no arm raises it. Safe: the model stops. -/
  | notModelled (mnemonic : String)
  deriving DecidableEq, Repr

/-- An unwritten register (R34). Its bits are 0, which nothing reads (log 1, DESIGN CHOICE). -/
def Reg.unwritten : Reg := ⟨0#32, false⟩

/-- A register that holds `v` (R34). -/
abbrev Reg.of (v : Word) : Reg := ⟨v, true⟩

/-- PEND with no command pending (R37). -/
def Pend.empty : Pend := ⟨none, Reg.unwritten, Reg.unwritten, Reg.unwritten⟩

/-- The block after reset (R37, R230), before the first step: no fault is marked (log 8), the window stands at the
address the platform gave it (0 here, log 10), and nothing is placed to run (log 5). -/
def State.reset : State where
  a := Reg.unwritten
  b := Reg.unwritten
  c := Reg.unwritten
  len := Reg.unwritten
  data0 := Reg.unwritten
  data1 := Reg.unwritten
  data2 := Reg.unwritten
  phase := .idle
  busy := false
  pend := Pend.empty
  err := false
  errCode := .noError
  mark := false
  base := 0
  inputs := []
  turns := []
  lastRead := none
  draws := 0

end Sys2Proof.Machine
end

