-- ==== Sys2Proof/Machine/Flags.lean ====
section
/-! DEFINITION. The status fields and the STATUS word (R30 of 10_state.md, R177 of 43_host_access.md). The block has no
arithmetic flags (R35): no command sets a carry, overflow or zero flag. -/

namespace Sys2Proof.Machine

/-- The 2 bits of PHASE (R25). -/
def Phase.toBits : Phase → BitVec 2
  | .idle => 0#2
  | .active => 1#2
  | .done => 2#2

/-- The 4 bits of ERRCODE (R200 of 60_exceptions.md). -/
def ErrorCode.toBits : ErrorCode → BitVec 4
  | .noError => 0#4
  | .illegalCmd => 1#4
  | .busy => 2#4
  | .sequence => 3#4
  | .badAccess => 4#4

/-- The STATUS word (R177): BUSY in bit 0, PHASE in [2:1], ERR in bit 3, ERRCODE in [7:4], zero above (R30). -/
def State.status (s : State) : Word :=
  (BitVec.ofBool s.busy).setWidth 32 ||| (s.phase.toBits.setWidth 32 <<< 1)
    ||| ((BitVec.ofBool s.err).setWidth 32 <<< 3) ||| (s.errCode.toBits.setWidth 32 <<< 4)

/-- `ready` of R171: the accumulators and LEN can be read. -/
def State.ready (s : State) : Bool := !s.busy && s.phase != .idle

/-- RESULT can be read: `BUSY = 0` and `PHASE = DONE` (R31, R174). -/
def State.resultReady (s : State) : Bool := !s.busy && s.phase == .done

end Sys2Proof.Machine
end

