-- ==== Sys2Proof/Machine/Mix.lean ====
section
/-! DEFINITION. The mix step (41_mix_pipeline.md): nine lines of one form over three words, and the inverse of R134. -/

namespace Sys2Proof.Machine

/-- The three accumulators as words: the source's MixState `a`, `b`, `c` (R20, R120). -/
structure Acc where
  a : Word
  b : Word
  c : Word
  deriving DecidableEq, Repr

/-- The generic line `Line(x; y, z; S)` of R130, with `sz` the shifted `S(z)`: the new `x`. -/
def line (x y z sz : Word) : Word := ((x - y) - z) ^^^ sz

/-- Line 1 (R121). -/
def mixLine1 (m : Acc) : Acc := { m with a := line m.a m.b m.c (m.c >>> 13) }
/-- Line 2 (R122). -/
def mixLine2 (m : Acc) : Acc := { m with b := line m.b m.c m.a (m.a <<< 8) }
/-- Line 3 (R123). -/
def mixLine3 (m : Acc) : Acc := { m with c := line m.c m.a m.b (m.b >>> 13) }
/-- Line 4 (R124). -/
def mixLine4 (m : Acc) : Acc := { m with a := line m.a m.b m.c (m.c >>> 12) }
/-- Line 5 (R125). -/
def mixLine5 (m : Acc) : Acc := { m with b := line m.b m.c m.a (m.a <<< 16) }
/-- Line 6 (R126). -/
def mixLine6 (m : Acc) : Acc := { m with c := line m.c m.a m.b (m.b >>> 5) }
/-- Line 7 (R127). -/
def mixLine7 (m : Acc) : Acc := { m with a := line m.a m.b m.c (m.c >>> 3) }
/-- Line 8 (R128). -/
def mixLine8 (m : Acc) : Acc := { m with b := line m.b m.c m.a (m.a <<< 10) }
/-- Line 9 (R129). -/
def mixLine9 (m : Acc) : Acc := { m with c := line m.c m.a m.b (m.b >>> 15) }

/-- `Mix(a, b, c)` (R120): the nine lines in order, each on the values the previous lines left. -/
def mix (m : Acc) : Acc :=
  mixLine9 (mixLine8 (mixLine7 (mixLine6 (mixLine5 (mixLine4 (mixLine3 (mixLine2 (mixLine1 m))))))))

/-- The inverse of one line (R134): `x = (x' ^ S(z)) + y + z`. -/
def unline (x y z sz : Word) : Word := (x ^^^ sz) + y + z

/-- The inverse of `Mix` (R134): the nine lines undone, line 9 first. No rule of the block uses it. -/
def unmix (m : Acc) : Acc :=
  let m := { m with c := unline m.c m.a m.b (m.b >>> 15) }
  let m := { m with b := unline m.b m.c m.a (m.a <<< 10) }
  let m := { m with a := unline m.a m.b m.c (m.c >>> 3) }
  let m := { m with c := unline m.c m.a m.b (m.b >>> 5) }
  let m := { m with b := unline m.b m.c m.a (m.a <<< 16) }
  let m := { m with a := unline m.a m.b m.c (m.c >>> 12) }
  let m := { m with c := unline m.c m.a m.b (m.b >>> 13) }
  let m := { m with b := unline m.b m.c m.a (m.a <<< 8) }
  { m with a := unline m.a m.b m.c (m.c >>> 13) }

end Sys2Proof.Machine
end

