-- ==== Sys2Proof/Machine/Operands.lean ====
section
/-! DEFINITION. Operand words (30_encoding.md R76 to R78, R10, R54): how message bytes make words, which lanes FINAL
uses, and which DATA registers a command uses. -/

namespace Sys2Proof.Machine

/-- `msg[i]` widened to 32 bits (R10). It is used only where `i < len(msg)`; past the end it is 0. -/
def byteAt (msg : List Byte) (i : Nat) : Word := zextByte (msg.getD i 0#8)

/-- `LE32(msg, p)` of R10: the little-endian word of the four bytes at `p`. -/
def le32 (msg : List Byte) (p : Nat) : Word :=
  byteAt msg p ||| byteAt msg (p + 1) <<< 8 ||| byteAt msg (p + 2) <<< 16 ||| byteAt msg (p + 3) <<< 24

/-- Lane `j` of a word, bits [8j+7:8j] (00_scope.md section 5). R55 of 20_memory.md: it stands at the bus byte address
`BASE + offset + j` of the register that holds the word. -/
def lane (v : Word) (j : Nat) : Byte := v.extractLsb' (8 * j) 8

/-- The mask of lane `j` of tail word `k`, if FINAL `rem` uses that lane (R78). -/
def laneMask (k rem j : Nat) : Word := if 4 * k + j < rem then 0xFF#32 <<< (8 * j) else 0#32

/-- `TM(k, rem)` of R78: the lanes of tail word `k` that FINAL `rem` uses. -/
def tailMask (k rem : Nat) : Word :=
  laneMask k rem 0 ||| laneMask k rem 1 ||| laneMask k rem 2 ||| laneMask k rem 3

/-- Lane `j` of the tail word `T_k` for the tail at `pos`, 0 where `4k + j ≥ rem` (R76, R82). -/
def tailLane (msg : List Byte) (pos rem k j : Nat) : Word :=
  if 4 * k + j < rem then byteAt msg (pos + (4 * k + j)) <<< (8 * j) else 0#32

/-- The tail word `T_k` of R76 with its ignored lanes 0, as the HASH pseudo-instruction writes it (R82). -/
def tailWord (msg : List Byte) (pos rem k : Nat) : Word :=
  tailLane msg pos rem k 0 ||| tailLane msg pos rem k 1 ||| tailLane msg pos rem k 2 ||| tailLane msg pos rem k 3

/-- The DATA registers a command uses (R77). -/
def usesData : Instr → Fin 3 → Bool
  | .init, k => k == 0
  | .block, _ => true
  | .final rem, k => decide (4 * k.val + 1 ≤ rem.toNat)

/-- The commands that compute from `A`, `B`, `C` and `LEN` (R146, R148, R151), and are issued only in ACTIVE (R141). -/
def needsActive : Instr → Bool
  | .init => false
  | .block => true
  | .final _ => true

end Sys2Proof.Machine
end

