-- ==== Sys2Proof/Machine/Ops.lean ====
section
/-! DEFINITION. The named operations over the registers, recording an error (the block's trap entry, R205 of
60_exceptions.md), clearing it (its trap return, R208), the reset input (R230, R231), and the use of `undefined`. -/

namespace Sys2Proof.Machine

open Sys2Proof.Config (Source)

/-! ### Recording and clearing an error -/

/-- `raise Error(code)` (R205): the first error is kept in ERR and ERRCODE, a later one changes neither; nothing else of
the block changes. The fault mark is set either way (R212 (a)). -/
def raiseError (code : ErrorCode) (s : State) : State :=
  { s with err := true, errCode := if s.err then s.errCode else code, mark := true }

/-- ERR and ERRCODE cleared, by reset or by an accepted INIT (R208). The fault mark stays (R212). -/
def clearError (s : State) : State := { s with err := false, errCode := .noError }

/-! ### Reset -/

/-- The reset input (R230, R231, R37): a pending command is discarded, the data registers become unwritten, and the
control state is that of R37. The fault mark is not cleared (R231); what is outside the block does not change. -/
def applyReset (s : State) : State :=
  { clearError s with
    a := Reg.unwritten, b := Reg.unwritten, c := Reg.unwritten, len := Reg.unwritten
    data0 := Reg.unwritten, data1 := Reg.unwritten, data2 := Reg.unwritten
    phase := .idle, busy := false, pend := Pend.empty }

/-! ### Registers -/

/-- What a defined read of a register answers: its value if it is written, else `undefined` (R34). -/
def Reg.read? (r : Reg) : Option Word := if r.written then some r.bits else none

/-- `DATA[k]` (R28). -/
def State.data (s : State) : Fin 3 → Reg
  | 0 => s.data0
  | 1 => s.data1
  | 2 => s.data2

/-- `DATA[k] <- v`, and `DATA[k]` is then written (R172). -/
def State.setData (k : Fin 3) (v : Word) (s : State) : State :=
  match k with
  | 0 => { s with data0 := Reg.of v }
  | 1 => { s with data1 := Reg.of v }
  | 2 => { s with data2 := Reg.of v }

/-- `PEND.d_k` (R27). -/
def Pend.operand (p : Pend) : Fin 3 → Reg
  | 0 => p.d0
  | 1 => p.d1
  | 2 => p.d2

/-! ### Values a perform computes from -/

/-- The value a perform computes from, read from a register or a latched operand: the `u32` it holds, or the free value
of `undefined` when it is unwritten (R34, R151: "The hardware itself computes from whatever bits it holds"). What the
free value depends on is the model's choice (log 2). -/
def State.valueOf (s : State) (src : Source) (r : Reg) : Word :=
  if r.written then r.bits else Config.undefinedBits s.base s.draws src

/-- The operand `d0` of the pending command. -/
def State.operand0 (s : State) : Word := s.valueOf .operand0 s.pend.d0
/-- The operand `d1` of the pending command. -/
def State.operand1 (s : State) : Word := s.valueOf .operand1 s.pend.d1
/-- The operand `d2` of the pending command. -/
def State.operand2 (s : State) : Word := s.valueOf .operand2 s.pend.d2

/-- The accumulators as a perform computes from them. -/
def State.acc (s : State) : Acc :=
  ⟨s.valueOf .accA s.a, s.valueOf .accB s.b, s.valueOf .accC s.c⟩

/-- LEN as a perform computes from it. -/
def State.length (s : State) : Word := s.valueOf .len s.len

/-- The accumulators replaced by three words: all three are then written (R34). -/
def State.setAcc (m : Acc) (s : State) : State :=
  { s with a := Reg.of m.a, b := Reg.of m.b, c := Reg.of m.c }

/-- `A`, `B`, `C` and `LEN` are all written (R34). -/
def State.accWritten (s : State) : Bool := s.a.written && s.b.written && s.c.written && s.len.written

/-- The perform of `i` uses an `undefined` value (R151): an operand that R77 lists as used and that was latched
unwritten, or, for BLOCK and FINAL, an accumulator or LEN that is unwritten. -/
def State.performUndefined (i : Instr) (s : State) : Bool :=
  (usesData i 0 && !s.pend.d0.written) || (usesData i 1 && !s.pend.d1.written)
    || (usesData i 2 && !s.pend.d2.written) || (needsActive i && !s.accWritten)

/-- A step that used an `undefined` value sets the fault mark (R212 (b), (c)) and has drawn its free value. -/
def State.noteUndefined (used : Bool) (s : State) : State :=
  { s with mark := s.mark || used, draws := if used then s.draws + 1 else s.draws }

/-! ### The address of the window -/

/-- The offset in the window at `base` of a bus byte address, none outside the window (R50, R179). -/
def windowOffset (base addr : Nat) : Option Offset :=
  if base ≤ addr ∧ addr < base + Config.windowBytes then some (BitVec.ofNat 6 (addr - base)) else none

end Sys2Proof.Machine
end

