-- ==== Sys2Proof/Machine/Access.lean ====
section
/-! DEFINITION. The host's accesses of the window (43_host_access.md, 20_memory.md), and issuing a command
(42_commands.md R141). -/

namespace Sys2Proof.Machine

/-! ### The register map -/

/-- The register at an offset that is a multiple of 4 (R51); none for the reserved offsets 0x28 to 0x3C (R53). -/
def regAt (off : Offset) : Option RegName :=
  match off.toNat / 4 with
  | 0 => some .cmd
  | 1 => some .data0
  | 2 => some .data1
  | 3 => some .data2
  | 4 => some .status
  | 5 => some .result
  | 6 => some .len
  | 7 => some .accA
  | 8 => some .accB
  | 9 => some .accC
  | _ => none

/-- An access is legal in its form: 32 bits at a multiple of 4 (R52, R178). -/
def legalForm (off : Offset) (width : Nat) : Bool := width == 32 && off.toNat % 4 == 0

/-! ### Issuing a command -/

/-- The issue conditions of R141 hold for a decoded command: BLOCK and FINAL need `PHASE = ACTIVE`. -/
def State.phaseAllows (s : State) (i : Instr) : Bool := !needsActive i || s.phase == .active

/-- An accepted issue (R141, R142): the command and `DATA[0..2]` as they stand are latched, INIT clears the error
(R145), and BUSY is set. -/
def acceptCmd (i : Instr) (s : State) : State :=
  { (if i = .init then clearError s else s) with
    pend := ⟨some i, s.data0, s.data1, s.data2⟩
    busy := true }

/-- `IssueCmd(w)` (R141): the checks in their order, the first that fails ends the write. -/
def issueCmd (w : Word) (s : State) : State :=
  if s.busy then raiseError .busy s
  else
    match decode w with
    | .error _ => raiseError .illegalCmd s
    | .ok i => if s.phaseAllows i then acceptCmd i s else raiseError .sequence s

/-! ### Writes -/

/-- `BusWrite(off, v, wd)` (R170). -/
def writeOffset (off : Offset) (v : Word) (width : Nat) (s : State) : State :=
  if legalForm off width then
    match regAt off with
    | some .cmd => issueCmd v s
    | some .data0 => s.setData 0 v
    | some .data1 => s.setData 1 v
    | some .data2 => s.setData 2 v
    | some .status => raiseError .badAccess s
    | some .result => raiseError .badAccess s
    | some .len => raiseError .badAccess s
    | some .accA => raiseError .badAccess s
    | some .accB => raiseError .badAccess s
    | some .accC => raiseError .badAccess s
    | none => raiseError .badAccess s
  else raiseError .badAccess s

/-- A host write at a bus byte address: outside the window it does not reach the block (R179, log 11). -/
def busWrite (addr : Nat) (v : Word) (width : Nat) (s : State) : State :=
  match windowOffset s.base addr with
  | some off => writeOffset off v width s
  | none => s

/-! ### Reads -/

/-- `BusRead(off, wd)` (R171): a word, or `undefined` (none). It is a function of the state and changes nothing. -/
def readOffset (off : Offset) (width : Nat) (s : State) : Option Word :=
  if legalForm off width then
    match regAt off with
    | some .cmd => none
    | some .data0 => s.data0.read?
    | some .data1 => s.data1.read?
    | some .data2 => s.data2.read?
    | some .status => some s.status
    | some .result => if s.resultReady then s.c.read? else none
    | some .len => if s.ready then s.len.read? else none
    | some .accA => if s.ready then s.a.read? else none
    | some .accB => if s.ready then s.b.read? else none
    | some .accC => if s.ready then s.c.read? else none
    | none => none
  else none

/-- The host sees the answer of a read. An `undefined` answer is a free value and sets the fault mark (R180,
R212 (b)); no register of the block changes (R171). That the free value depends on the block's `BASE` and its count of
uses is the model's choice (log 2), so that no two blocks of a platform are made to answer the same bits (log 20). -/
def answerRead (ans : Option Word) (s : State) : State :=
  match ans with
  | some v => { s with lastRead := some (.value v) }
  | none => { s.noteUndefined true with
      lastRead := some (.undefined (Config.undefinedBits s.base s.draws .readback)) }

/-- A host read at a bus byte address: outside the window it does not reach the block (R179, log 11). -/
def busRead (addr width : Nat) (s : State) : State :=
  match windowOffset s.base addr with
  | some off => answerRead (readOffset off width s) s
  | none => s

/-! ### What reaches the block -/

/-- One read of POLL (R81): STATUS is read, and while the word read has `BUSY = 1` the poll is repeated. -/
def poll (s : State) : State :=
  let t := answerRead (some s.status) s
  if s.busy then { t with inputs := .poll :: t.inputs } else t

/-- The effect on the block of one input. -/
def applyInput (x : Input) (s : State) : State :=
  match x with
  | .write addr v width => busWrite addr v width s
  | .read addr width => busRead addr width s
  | .poll => poll s
  | .reset => applyReset s

/-- The host's step (R12): its next access, taken from the list; with none left it does nothing (log 7). -/
def hostTurn (s : State) : State :=
  match s.inputs with
  | [] => s
  | x :: rest => applyInput x { s with inputs := rest }

end Sys2Proof.Machine
end

