-- ==== Sys2Proof/Machine/Commands.lean ====
section
/-! DEFINITION. The meanings of the three commands: what their perform does (42_commands.md R143, R146, R148, R150).
Each reads the operands that the issue latched in PEND (R142), computes on the current accumulators, writes the results
in one step and clears BUSY. An `undefined` operand does not stop the block: it computes from a free value, and the
fault mark is set (R151, R212 (c)). -/

namespace Sys2Proof.Machine

open Host (Outcome)

/-- `PerformINIT(d0)` (R143): `A = B = GOLDEN`, `C = d0`, `LEN = 0`, `PHASE = ACTIVE`. -/
def execInit (s : State) : Outcome State Fault Refusal :=
  .next
    { s.setAcc ⟨Config.golden, Config.golden, s.operand0⟩ |>.noteUndefined (s.performUndefined .init) with
      len := Reg.of 0#32
      phase := .active
      busy := false }

/-- The accumulators after BLOCK (R146): the three operands added, then `Mix`. -/
def blockAcc (m : Acc) (d0 d1 d2 : Word) : Acc := mix ⟨m.a + d0, m.b + d1, m.c + d2⟩

/-- `PerformBLOCK(d0, d1, d2)` (R146): add, mix, `LEN <- LEN + 12`; PHASE stays. -/
def execBlock (s : State) : Outcome State Fault Refusal :=
  .next
    { s.setAcc (blockAcc s.acc s.operand0 s.operand1 s.operand2)
        |>.noteUndefined (s.performUndefined .block) with
      len := Reg.of (s.length + BitVec.ofNat 32 Config.blockBytes)
      busy := false }

/-- The accumulators after FINAL (R148), with `n` the new LEN: the length folded into `c`, the tail words masked by
`TM` and added, then `Mix`. -/
def finalAcc (m : Acc) (n : Word) (rem : Nat) (d0 d1 d2 : Word) : Acc :=
  mix
    ⟨m.a + (d0 &&& tailMask 0 rem),
     m.b + (d1 &&& tailMask 1 rem),
     m.c + n + ((d2 &&& tailMask 2 rem) <<< 8)⟩

/-- `PerformFINAL(rem, d0, d1, d2)` (R148): `LEN <- LEN + rem`, fold, merge the tail, mix, `PHASE <- DONE`. -/
def execFinal (rem : BitVec 4) (s : State) : Outcome State Fault Refusal :=
  let n := s.length + rem.setWidth 32
  .next
    { s.setAcc (finalAcc s.acc n rem.toNat s.operand0 s.operand1 s.operand2)
        |>.noteUndefined (s.performUndefined (.final rem)) with
      len := Reg.of n
      phase := .done
      busy := false }

end Sys2Proof.Machine
end

