-- ==== Sys2Proof/Machine/Turns.lean ====
section
/-! DEFINITION. Whose step is next (R12 of 00_scope.md), the core's step (R150 of 42_commands.md), and placing a command
word where the core takes its command from. -/

namespace Sys2Proof.Machine

open Host (Outcome)

/-- The agent that moves: the core is enabled exactly while `BUSY = 1` (R12, R150), so with `BUSY = 0` it is the host.
While both can move, the list `turns` says which (LATENCY of R7, log 6); when it is used up the core moves, so a pending
command is always performed (R243). -/
def State.nextAgent (s : State) : Agent :=
  if s.busy then s.turns.headD .core else .host

/-- The choice that `nextAgent` took from `turns` is used up. -/
def State.passTurn (s : State) : State :=
  { s with turns := if s.busy then s.turns.tail else s.turns }

/-- The core's step (R150): perform the command in PEND. -/
def coreTurn (s : State) : Outcome State Fault Refusal :=
  match s.pend.cmd with
  | some i => exec i s
  | none => .fault .emptyLatch

/-- One step of the block: the agent whose turn it is moves. -/
def turnStep (s : State) : Outcome State Fault Refusal :=
  match s.nextAgent with
  | .host => .next (hostTurn s.passTurn)
  | .core => coreTurn s.passTurn

/-- The command of a table word placed in PEND as an accepted CMD write leaves it (R141, R142), with the core's turn
next: the very next step performs it (log 23). A word that is no command cannot stand in PEND: the CMD write of it is
then the next access of a block that is not busy. -/
def placeWord (nbits w : Nat) (s : State) : State :=
  match decodeTableWord nbits w with
  | some i =>
    { s with
      pend := ⟨some i, s.data0, s.data1, s.data2⟩
      busy := true
      turns := .core :: s.turns }
  | none =>
    { s with
      busy := false
      inputs := .write s.base (BitVec.ofNat 32 (w % 2 ^ nbits)) 32 :: s.inputs }

end Sys2Proof.Machine
end

