-- ==== Sys2Proof/Machine/Step.lean ====
section
/-! DEFINITION. The step of one block: a host access, a platform reset, or the core's perform (R12 of 00_scope.md). -/

namespace Sys2Proof.Machine

/-- One step of the block. -/
def step (s : State) : Host.Outcome State Fault Refusal := turnStep s

/-- `s` with a command word placed so that the very next step performs it (log 23). -/
def State.withFetchWord (s : State) (nbits w : Nat) : State := placeWord nbits w s

end Sys2Proof.Machine
end

