-- ==== Sys2Proof/Machine/Assembler.lean ====
section
/-! DEFINITION. The statements and pseudo-instructions of 30_encoding.md (R81, R82) as the host accesses they stand for,
and the canonical command sequence of R152 (42_commands.md). The host's own labels and branches are not block operations
(R81): a sequence here is what they unroll to. -/

namespace Sys2Proof.Machine

/-- `offset(reg)` (R51, R81). -/
def regOffset : RegName → Nat
  | .cmd => 0x00
  | .data0 => 0x04
  | .data1 => 0x08
  | .data2 => 0x0C
  | .status => 0x10
  | .result => 0x14
  | .len => 0x18
  | .accA => 0x1C
  | .accB => 0x20
  | .accC => 0x24

/-- `WR <reg>, <imm32>` (R81) for the window at `base`. -/
def wr (base : Nat) (r : RegName) (v : Word) : Input := .write (base + regOffset r) v 32

/-- `RD <reg>` (R81). The value read stands in `State.lastRead`. -/
def rd (base : Nat) (r : RegName) : Input := .read (base + regOffset r) 32

/-- `INIT <seed>` (R82). -/
def asmInit (base : Nat) (seed : Word) : List Input :=
  [wr base .data0 seed, wr base .cmd (encode .init), .poll]

/-- `BLOCK <w0>, <w1>, <w2>` (R82). -/
def asmBlock (base : Nat) (w0 w1 w2 : Word) : List Input :=
  [wr base .data0 w0, wr base .data1 w1, wr base .data2 w2, wr base .cmd (encode .block), .poll]

/-- `FINAL <rem>, <t0>, <t1>, <t2>` (R82). -/
def asmFinal (base : Nat) (rem : BitVec 4) (t0 t1 t2 : Word) : List Input :=
  [wr base .data0 t0, wr base .data1 t1, wr base .data2 t2, wr base .cmd (encode (.final rem)), .poll]

/-- The BLOCKs of the first `n` blocks of a message (R152). -/
def asmBlocks (base : Nat) (msg : List Byte) (n : Nat) : List Input :=
  (List.range n).flatMap fun i =>
    asmBlock base (le32 msg (12 * i)) (le32 msg (12 * i + 4)) (le32 msg (12 * i + 8))

/-- The canonical sequence of R152 for a message and a seed, with the tail words given. -/
def canonicalSequence (base : Nat) (msg : List Byte) (seed t0 t1 t2 : Word) : List Input :=
  asmInit base seed ++ asmBlocks base msg (msg.length / 12)
    ++ asmFinal base (BitVec.ofNat 4 (msg.length % 12)) t0 t1 t2

/-- `HASH <msg>, <seed>` (R82): the canonical sequence with zeros in the ignored lanes, then `RD RESULT`. -/
def asmHash (base : Nat) (msg : List Byte) (seed : Word) : List Input :=
  let pos := 12 * (msg.length / 12)
  let rem := msg.length % 12
  canonicalSequence base msg seed (tailWord msg pos rem 0) (tailWord msg pos rem 1) (tailWord msg pos rem 2)
    ++ [rd base .result]

/-- `HASH <msg>` (R82, R111): the default seed is 0. -/
def asmHashDefault (base : Nat) (msg : List Byte) : List Input := asmHash base msg 0#32

end Sys2Proof.Machine
end

