-- ==== Sys2Proof/Machine/Hash.lean ====
section
/-! DEFINITION. The reference function `Hash(msg, seed)` (40_reference_function.md R100 to R108), written from its
pseudocode and independent of the register machine. -/

namespace Sys2Proof.Machine

/-- Step 1 of the algorithm (R101). -/
def hashInit (seed : Word) : Acc := ⟨Config.golden, Config.golden, seed⟩

/-- The body of the block loop at `pos` (R102): three little-endian words added, then `Mix`. -/
def absorbBlock (msg : List Byte) (pos : Nat) (m : Acc) : Acc :=
  mix ⟨m.a + le32 msg pos, m.b + le32 msg (pos + 4), m.c + le32 msg (pos + 8)⟩

/-- The block loop of R100, from `pos` on, with fuel: `while len(msg) - pos >= 12`. It gives the last `pos` and the
accumulators. `len(msg)` is fuel enough, since each turn of the loop takes 12 bytes. -/
def absorbLoop (msg : List Byte) : Nat → Nat → Acc → Nat × Acc
  | 0, pos, m => (pos, m)
  | fuel + 1, pos, m =>
    if 12 ≤ msg.length - pos then absorbLoop msg fuel (pos + 12) (absorbBlock msg pos m) else (pos, m)

/-- The `(a, b, c)` of R100 after `i` turns of the loop (R153 of 42_commands.md). -/
def afterBlocks (msg : List Byte) (seed : Word) : Nat → Acc
  | 0 => hashInit seed
  | i + 1 => absorbBlock msg (12 * i) (afterBlocks msg seed i)

/-- Step 3 (R103): the length of the whole message, modulo 2^32, is added to `c`. -/
def foldLength (n : Nat) (m : Acc) : Acc := { m with c := m.c + BitVec.ofNat 32 n }

/-- One conditional addition of the tail merge (R104): the byte at `pos + i`, shifted, if `rem ≥ i + 1`. -/
def tailTerm (msg : List Byte) (pos rem i sh : Nat) (x : Word) : Word :=
  if i + 1 ≤ rem then x + (byteAt msg (pos + i) <<< sh) else x

/-- Step 4 (R104): the cascade of conditional additions, in the order of the table. -/
def tailMerge (msg : List Byte) (pos rem : Nat) (m : Acc) : Acc :=
  let t := tailTerm msg pos rem
  let c := m.c
  let c := t 10 24 c
  let c := t 9 16 c
  let c := t 8 8 c
  let b := m.b
  let b := t 7 24 b
  let b := t 6 16 b
  let b := t 5 8 b
  let b := t 4 0 b
  let a := m.a
  let a := t 3 24 a
  let a := t 2 16 a
  let a := t 1 8 a
  let a := t 0 0 a
  ⟨a, b, c⟩

/-- The accumulators after the final mix of R100 (R107). -/
def hashAcc (msg : List Byte) (seed : Word) : Acc :=
  let l := absorbLoop msg msg.length 0 (hashInit seed)
  mix (tailMerge msg l.1 (msg.length - l.1) (foldLength msg.length l.2))

/-- `Hash(msg, seed)` (R100): "Return `c`". -/
def referenceHash (msg : List Byte) (seed : Word) : Word := (hashAcc msg seed).c

end Sys2Proof.Machine
end

