-- ==== Sys2Proof/Machine/Platform.lean ====
section
/-! DEFINITION. A platform of `NINST` independent blocks (R7 of 00_scope.md, R64 of 20_memory.md, R216 of
60_exceptions.md), each with its own window and its own copy of all the state. -/

namespace Sys2Proof.Machine

open Host (Outcome)

/-- The blocks of a platform; `NINST` is their number (R7). -/
structure Platform where
  blocks : List State
  deriving DecidableEq, Repr

/-- The platform's obligations (R7, R64): at least one block, every `BASE` 64-byte aligned, no two windows at one
place. -/
def Platform.wf (p : Platform) : Bool :=
  !p.blocks.isEmpty && p.blocks.all (fun s => s.base % Config.windowBytes == 0)
    && decide ((p.blocks.map State.base).Nodup)

/-- A host write on the platform's bus: it reaches the block whose window holds the address (R50, R179). -/
def Platform.busWrite (addr : Nat) (v : Word) (width : Nat) (p : Platform) : Platform :=
  ⟨p.blocks.map (Sys2Proof.Machine.busWrite addr v width)⟩

/-- A host read on the platform's bus. -/
def Platform.busRead (addr width : Nat) (p : Platform) : Platform :=
  ⟨p.blocks.map (Sys2Proof.Machine.busRead addr width)⟩

/-- Block `k` takes its next step; the others stand still. With no block `k`, nothing moves. -/
def Platform.stepAt (k : Nat) (p : Platform) : Outcome Platform Fault Refusal :=
  match p.blocks[k]? with
  | none => .next p
  | some s =>
    match step s with
    | .next t => .next ⟨p.blocks.set k t⟩
    | .fault r => .fault r
    | .refused r => .refused r

end Sys2Proof.Machine
end

