-- ==== Sys2Proof/Safety.lean ====
section
/-! DEFINITION. What claims about a run speak of: the fault mark of R212 (60_exceptions.md), a final state, and the
invariant of the reachable states. -/

namespace Sys2Proof.Machine

/-- No fault is marked (R212): the premise of a claim about a run. -/
def State.unmarked (s : State) : Bool := !s.mark

/-- A run is final when its inputs are used up, no command is pending and no fault is marked. Of this the spec gives only
the last, "a faulted run is never final" (R13, R212); the other two conditions are the model's own (log 26, DESIGN
CHOICE). -/
def State.isFinal (s : State) : Bool := s.inputs.isEmpty && !s.busy && s.unmarked

/-- The invariant of the block: what holds of every state that reset and steps reach. -/
structure State.Inv (s : State) : Prop where
  /-- `BASE` is 64-byte aligned (R7). -/
  base_aligned : s.base % Config.windowBytes = 0
  /-- While `BUSY = 1` exactly one command is pending, in PEND (R26), it is a legal one (R27, R74), and a BLOCK or FINAL
  is pending only in ACTIVE (R141). -/
  busy_pending : s.busy = true →
    ∃ i, s.pend.cmd = some i ∧ i.wf = true ∧ (needsActive i = true → s.phase = .active)
  /-- Outside IDLE the accumulators and LEN are written (R34, R143, R151). -/
  phase_written : s.phase ≠ .idle → s.accWritten = true
  /-- ERRCODE is NONE exactly while no error is recorded (R29, R200). -/
  err_code : s.err = false ↔ s.errCode = .noError
  /-- A recorded error has set the fault mark, which nothing clears (R212). -/
  err_marked : s.err = true → s.mark = true

/-- A register with the bits of an unwritten one set to a fixed value: what is left is what the spec gives the register
(R34, R232). -/
def Reg.erase (r : Reg) : Reg := if r.written then r else Reg.unwritten

/-- A state with the bits of every unwritten register and latched operand erased. Two states with the same erasure
differ only in bits the spec leaves unspecified (R232). -/
def State.erase (s : State) : State :=
  { s with
    a := s.a.erase, b := s.b.erase, c := s.c.erase, len := s.len.erase
    data0 := s.data0.erase, data1 := s.data1.erase, data2 := s.data2.erase
    pend := ⟨s.pend.cmd, s.pend.d0.erase, s.pend.d1.erase, s.pend.d2.erase⟩ }

end Sys2Proof.Machine
end

