-- ==== Sys2Proof/Certificates/Slice0/Obligations.lean ====
section
/-! DEFINITION. The statements for the provers. Each formalises the rule or the sections of spec/ its docstring names;
OBLIGATIONS.json holds the list. -/

open Sys2Proof Sys2Proof.Machine

/-! ### Encoding (30_encoding.md) -/

/-- Words of the decode table (95_test_vectors.md section 2.2), read bit by bit from R70 and R74. -/
def Obligations.DecodeTableWords : Prop :=
  decode 0x00000001#32 = .ok .init ∧ decode 0x00000002#32 = .ok .block ∧
  decode 0x00000003#32 = .ok (.final 0) ∧ decode 0x00000103#32 = .ok (.final 1) ∧
  decode 0x00000B03#32 = .ok (.final 11) ∧
  decode 0x00000000#32 = .error .reservedOp ∧ decode 0x0000000F#32 = .error .reservedOp ∧
  decode 0x00000101#32 = .error .remNotZero ∧ decode 0x00000102#32 = .error .remNotZero ∧
  decode 0x00000C03#32 = .error .remTooLarge ∧ decode 0x00000F03#32 = .error .remTooLarge ∧
  decode 0x00000013#32 = .error .reservedBits ∧ decode 0x80000003#32 = .error .reservedBits

/-- R74: the three rows of the table of legal words, by word and by match and mask, and the count: the words that decode
to a command are exactly the 14 of the rule. -/
def Obligations.LegalWordsAreExactlyFourteen : Prop :=
  (∀ w : Word, decode w = .ok .init ↔ w &&& 0xFFFFFFFF#32 = 0x00000001#32) ∧
  (∀ w : Word, decode w = .ok .block ↔ w &&& 0xFFFFFFFF#32 = 0x00000002#32) ∧
  (∀ (w : Word) (rem : BitVec 4), decode w = .ok (.final rem) ↔
    w &&& 0xFFFFF0FF#32 = 0x00000003#32 ∧ w.extractLsb' 8 4 = rem ∧ rem.toNat ≤ 11) ∧
  (∀ (w : Word) (rem : BitVec 4), decode w = .ok (.final rem) ↔
    w = 0x00000003#32 ||| rem.setWidth 32 <<< 8 ∧ rem.toNat ≤ 11) ∧
  (∀ w : Word, (∃ i, decode w = .ok i) ↔
    w ∈ [0x00000001#32, 0x00000002#32, 0x00000003#32, 0x00000103#32, 0x00000203#32, 0x00000303#32, 0x00000403#32,
         0x00000503#32, 0x00000603#32, 0x00000703#32, 0x00000803#32, 0x00000903#32, 0x00000A03#32, 0x00000B03#32])

/-- R71, R72, R73: what OP and REM mean and what is illegal. A command's OP is its number and FINAL's `rem` is REM; OP 0
and 4 to 15, a set reserved bit, REM not 0 with INIT or BLOCK, and REM 12 to 15 with FINAL are illegal. -/
def Obligations.FieldsAndReservedEncodings : Prop :=
  (∀ w : Word, decode w = .ok .init → w.extractLsb' 0 4 = 1#4 ∧ w.extractLsb' 8 4 = 0#4) ∧
  (∀ w : Word, decode w = .ok .block → w.extractLsb' 0 4 = 2#4 ∧ w.extractLsb' 8 4 = 0#4) ∧
  (∀ (w : Word) (rem : BitVec 4), decode w = .ok (.final rem) →
    w.extractLsb' 0 4 = 3#4 ∧ w.extractLsb' 8 4 = rem ∧ rem.toNat ≤ 11) ∧
  (∀ w : Word, w.extractLsb' 4 4 ≠ 0#4 ∨ w.extractLsb' 12 20 ≠ 0#20 → ∃ e, decode w = .error e) ∧
  (∀ w : Word, w.extractLsb' 0 4 = 0#4 ∨ 4 ≤ (w.extractLsb' 0 4).toNat → ∃ e, decode w = .error e) ∧
  (∀ w : Word, w.extractLsb' 0 4 = 1#4 ∨ w.extractLsb' 0 4 = 2#4 → w.extractLsb' 8 4 ≠ 0#4 →
    ∃ e, decode w = .error e) ∧
  (∀ w : Word, w.extractLsb' 0 4 = 3#4 → 12 ≤ (w.extractLsb' 8 4).toNat → ∃ e, decode w = .error e)

/-- Decode and encode agree both ways: every well-formed command's word decodes to it, with every operand at every value
the encoding admits, and a word that decodes is the word of the command it decodes to. -/
def Obligations.DecodeEncodeAgree : Prop :=
  (∀ i : Instr, i.wf = true → decode (encode i) = .ok i) ∧
  (∀ (w : Word) (i : Instr), decode w = .ok i → i.wf = true ∧ encode i = w)

/-! ### The mix step (41_mix_pipeline.md) -/

/-- R120: `Mix` is the nine lines of the rule, each reading the values the previous lines left. -/
def Obligations.MixIsTheNineLines : Prop :=
  ∀ a b c : Word, mix ⟨a, b, c⟩ =
    (let a := a - b; let a := a - c; let a := a ^^^ (c >>> 13)
     let b := b - c; let b := b - a; let b := b ^^^ (a <<< 8)
     let c := c - a; let c := c - b; let c := c ^^^ (b >>> 13)
     let a := a - b; let a := a - c; let a := a ^^^ (c >>> 12)
     let b := b - c; let b := b - a; let b := b ^^^ (a <<< 16)
     let c := c - a; let c := c - b; let c := c ^^^ (b >>> 5)
     let a := a - b; let a := a - c; let a := a ^^^ (c >>> 3)
     let b := b - c; let b := b - a; let b := b ^^^ (a <<< 10)
     let c := c - a; let c := c - b; let c := c ^^^ (b >>> 15)
     ⟨a, b, c⟩)

/-- R133: zero is a fixed point of `Mix`; every line computes `0 - 0 - 0 = 0` and xors with a shift of 0. -/
def Obligations.MixFixesZero : Prop :=
  mix ⟨0, 0, 0⟩ = ⟨0, 0, 0⟩ ∧
  (∀ n : Nat, line 0 0 0 ((0 : Word) >>> n) = 0 ∧ line 0 0 0 ((0 : Word) <<< n) = 0) ∧
  [mixLine1, mixLine2, mixLine3, mixLine4, mixLine5, mixLine6, mixLine7, mixLine8, mixLine9].map (· ⟨0, 0, 0⟩) =
    List.replicate 9 ⟨0, 0, 0⟩

/-- R134: each line is undone by `x = (x' ^ S(z)) + y + z`, `Mix` by the nine lines undone, and `Mix` is a bijection on
triples of words. -/
def Obligations.MixIsABijection : Prop :=
  (∀ x y z sz x' : Word, x' = ((x - y) - z) ^^^ sz ↔ x = (x' ^^^ sz) + y + z) ∧
  (∀ m : Acc, unmix (mix m) = m) ∧ (∀ m : Acc, mix (unmix m) = m) ∧ Function.Bijective mix

/-! ### Operand words (30_encoding.md R76 to R78, 20_memory.md R54) -/

/-- R54: byte `msg[pos + 4k + j]` is in lane `j` of the operand word `k`; a tail word has the same mapping for the bytes
it has (and zero lanes above them, as R82 writes it); and four bytes of a word in lane order make the word again. -/
def Obligations.OperandWordsAreLittleEndian : Prop :=
  (∀ (msg : List Byte) (pos k j : Nat), j < 4 → pos + 4 * k + j < msg.length →
    some (lane (le32 msg (pos + 4 * k)) j) = msg[pos + 4 * k + j]?) ∧
  (∀ (msg : List Byte) (pos rem k j : Nat), j < 4 → pos + rem ≤ msg.length →
    (4 * k + j < rem → some (lane (tailWord msg pos rem k) j) = msg[pos + 4 * k + j]?) ∧
    (rem ≤ 4 * k + j → lane (tailWord msg pos rem k) j = 0#8)) ∧
  (∀ v : Word, le32 [lane v 0, lane v 1, lane v 2, lane v 3] 0 = v)

/-- R78: `TM(k, rem)` holds lane `j` whole when `4k + j < rem` and not at all otherwise; the rows of its table. -/
def Obligations.TailMaskLanes : Prop :=
  (∀ k rem j b : Nat, j < 4 → b < 8 → (tailMask k rem).getLsbD (8 * j + b) = decide (4 * k + j < rem)) ∧
  ((List.range 12).map fun rem => (tailMask 0 rem, tailMask 1 rem, tailMask 2 rem)) =
    [(0x00000000#32, 0x00000000#32, 0x00000000#32), (0x000000FF#32, 0x00000000#32, 0x00000000#32),
     (0x0000FFFF#32, 0x00000000#32, 0x00000000#32), (0x00FFFFFF#32, 0x00000000#32, 0x00000000#32),
     (0xFFFFFFFF#32, 0x00000000#32, 0x00000000#32), (0xFFFFFFFF#32, 0x000000FF#32, 0x00000000#32),
     (0xFFFFFFFF#32, 0x0000FFFF#32, 0x00000000#32), (0xFFFFFFFF#32, 0x00FFFFFF#32, 0x00000000#32),
     (0xFFFFFFFF#32, 0xFFFFFFFF#32, 0x00000000#32), (0xFFFFFFFF#32, 0xFFFFFFFF#32, 0x000000FF#32),
     (0xFFFFFFFF#32, 0xFFFFFFFF#32, 0x0000FFFF#32), (0xFFFFFFFF#32, 0xFFFFFFFF#32, 0x00FFFFFF#32)]

/-- R77: INIT uses `DATA[0]` only, BLOCK all three, FINAL the first from `rem ≥ 1`, the second from 5, the third from 9.
These are the operands whose value can change the result: for a used one there are two states that differ in it alone
and end with different accumulators, and for an unused one there are none. A used operand latched unwritten sets the
fault mark; an unused one may be unwritten. -/
def Obligations.UsedOperandsAreThoseThatMatter : Prop :=
  (∀ k, usesData .init k = true ↔ k = 0) ∧ (∀ k, usesData .block k = true) ∧
  (∀ rem : BitVec 4, (usesData (.final rem) 0 = true ↔ 1 ≤ rem.toNat) ∧
    (usesData (.final rem) 1 = true ↔ 5 ≤ rem.toNat) ∧ (usesData (.final rem) 2 = true ↔ 9 ≤ rem.toNat)) ∧
  (∀ (i : Instr) (k : Fin 3), i.wf = true →
    (usesData i k = true ↔
      ∃ s s' t t' : State, s.pend.cmd = s'.pend.cmd ∧ (∀ j, j ≠ k → s.pend.operand j = s'.pend.operand j) ∧
        s = { s' with pend := s.pend } ∧ exec i s = .next t ∧ exec i s' = .next t' ∧
        (t.a, t.b, t.c) ≠ (t'.a, t'.b, t'.c))) ∧
  (∀ (i : Instr) (s t : State) (k : Fin 3), exec i s = .next t → usesData i k = true →
    (s.pend.operand k).written = false → t.mark = true) ∧
  (∀ (i : Instr) (s t : State), exec i s = .next t → (∀ k, usesData i k = true → (s.pend.operand k).written = true) →
    s.accWritten = true → t.mark = s.mark)

/-! ### Commands (42_commands.md) -/

/-- R141: issuing a command. The checks in their order, the effect of each error, and the latch of an accepted word. -/
def Obligations.IssueFollowsTheChecks : Prop :=
  ∀ (s : State) (w : Word),
    (s.busy = true → issueCmd w s =
      { s with err := true, errCode := if s.err then s.errCode else .busy, mark := true }) ∧
    (∀ e, s.busy = false → decode w = .error e → issueCmd w s =
      { s with err := true, errCode := if s.err then s.errCode else .illegalCmd, mark := true }) ∧
    (∀ i, s.busy = false → decode w = .ok i → i ≠ .init → s.phase ≠ .active → issueCmd w s =
      { s with err := true, errCode := if s.err then s.errCode else .sequence, mark := true }) ∧
    (∀ i, s.busy = false → decode w = .ok i → i = .init ∨ s.phase = .active → issueCmd w s =
      { s with
        pend := ⟨some i, s.data0, s.data1, s.data2⟩
        err := if i = .init then false else s.err
        errCode := if i = .init then .noError else s.errCode
        busy := true })

/-- R143: INIT. Its word; when its issue is accepted and which errors it can raise; its perform, whole, with everything
it leaves as it was; and the undefined seed, which sets the fault mark: `C` then holds some bits `v`, which the statement
does not say. -/
def Obligations.InitCommand : Prop :=
  decode 0x00000001#32 = .ok .init ∧
  (∀ s : State, s.busy = false → issueCmd 0x00000001#32 s =
    { s with pend := ⟨some .init, s.data0, s.data1, s.data2⟩, err := false, errCode := .noError, busy := true }) ∧
  (∀ s : State, s.busy = true → issueCmd 0x00000001#32 s = raiseError .busy s) ∧
  (∀ (s : State) (w : Word), s.busy = false → w.extractLsb' 0 4 = 1#4 → w ≠ 0x00000001#32 →
    issueCmd w s = raiseError .illegalCmd s) ∧
  (∀ s : State, s.pend.d0.written = true → exec .init s = .next
    { s with
      a := ⟨0x9E3779B9#32, true⟩, b := ⟨0x9E3779B9#32, true⟩, c := ⟨s.pend.d0.bits, true⟩
      len := ⟨0#32, true⟩, phase := .active, busy := false }) ∧
  (∀ s : State, s.pend.d0.written = false → ∃ (v : Word) (n : Nat), exec .init s = .next
    { s with
      a := ⟨0x9E3779B9#32, true⟩, b := ⟨0x9E3779B9#32, true⟩, c := ⟨v, true⟩
      len := ⟨0#32, true⟩, phase := .active, busy := false, mark := true, draws := n })

/-- R146: BLOCK. Its word; when its issue is accepted and which errors it can raise; its perform, whole, with everything
it leaves as it was. -/
def Obligations.BlockCommand : Prop :=
  decode 0x00000002#32 = .ok .block ∧
  (∀ s : State, s.busy = false → s.phase = .active → issueCmd 0x00000002#32 s =
    { s with pend := ⟨some .block, s.data0, s.data1, s.data2⟩, busy := true }) ∧
  (∀ s : State, s.busy = true → issueCmd 0x00000002#32 s = raiseError .busy s) ∧
  (∀ (s : State) (w : Word), s.busy = false → w.extractLsb' 0 4 = 2#4 → w ≠ 0x00000002#32 →
    issueCmd w s = raiseError .illegalCmd s) ∧
  (∀ s : State, s.busy = false → s.phase = .idle ∨ s.phase = .done →
    issueCmd 0x00000002#32 s = raiseError .sequence s) ∧
  (∀ s : State, s.accWritten = true → (∀ k, (s.pend.operand k).written = true) → exec .block s = .next
    (let m := mix ⟨s.a.bits + s.pend.d0.bits, s.b.bits + s.pend.d1.bits, s.c.bits + s.pend.d2.bits⟩
     { s with
       a := ⟨m.a, true⟩, b := ⟨m.b, true⟩, c := ⟨m.c, true⟩
       len := ⟨s.len.bits + 12#32, true⟩, busy := false }))

/-- R148: FINAL. Its words; when its issue is accepted and which errors it can raise; its perform, whole, with everything
it leaves as it was: the length counted and folded in, the masked tail words added, the mix, `PHASE = DONE`. -/
def Obligations.FinalCommand : Prop :=
  (∀ rem : BitVec 4, rem.toNat ≤ 11 → decode (0x00000003#32 ||| rem.setWidth 32 <<< 8) = .ok (.final rem)) ∧
  (∀ (s : State) (rem : BitVec 4), rem.toNat ≤ 11 → s.busy = false → s.phase = .active →
    issueCmd (0x00000003#32 ||| rem.setWidth 32 <<< 8) s =
      { s with pend := ⟨some (.final rem), s.data0, s.data1, s.data2⟩, busy := true }) ∧
  (∀ (s : State) (rem : BitVec 4), rem.toNat ≤ 11 → s.busy = true →
    issueCmd (0x00000003#32 ||| rem.setWidth 32 <<< 8) s = raiseError .busy s) ∧
  (∀ (s : State) (w : Word), s.busy = false → w.extractLsb' 0 4 = 3#4 →
    12 ≤ (w.extractLsb' 8 4).toNat ∨ w.extractLsb' 4 4 ≠ 0#4 ∨ w.extractLsb' 12 20 ≠ 0#20 →
    issueCmd w s = raiseError .illegalCmd s) ∧
  (∀ (s : State) (rem : BitVec 4), rem.toNat ≤ 11 → s.busy = false → s.phase = .idle ∨ s.phase = .done →
    issueCmd (0x00000003#32 ||| rem.setWidth 32 <<< 8) s = raiseError .sequence s) ∧
  (∀ (s : State) (rem : BitVec 4), s.accWritten = true →
    (∀ k, usesData (.final rem) k = true → (s.pend.operand k).written = true) → exec (.final rem) s = .next
    (let n := s.len.bits + rem.setWidth 32
     let m := mix ⟨s.a.bits + (s.pend.d0.bits &&& tailMask 0 rem.toNat),
                   s.b.bits + (s.pend.d1.bits &&& tailMask 1 rem.toNat),
                   s.c.bits + n + (s.pend.d2.bits &&& tailMask 2 rem.toNat) <<< 8⟩
     { s with
       a := ⟨m.a, true⟩, b := ⟨m.b, true⟩, c := ⟨m.c, true⟩
       len := ⟨n, true⟩, phase := .done, busy := false }))

/-- Every command completes in every state, one that uses an `undefined` value as well (R150, R151: the hardware
"computes from whatever bits it holds and reports no error"): BUSY is cleared, and nothing but A, B, C, LEN, PHASE, BUSY,
the fault mark and the count of draws changes. -/
def Obligations.EveryCommandCompletes : Prop :=
  ∀ (i : Instr) (s : State), ∃ t, exec i s = .next t ∧ t.busy = false ∧
    t = { s with a := t.a, b := t.b, c := t.c, len := t.len, phase := t.phase, busy := false,
                 mark := t.mark, draws := t.draws } ∧
    t.accWritten = true

/-- R151: a perform sets the fault mark exactly when a value it uses is `undefined`: a used operand latched unwritten,
or, for BLOCK and FINAL, an unwritten A, B, C or LEN. The second case does not arise from a state of the invariant with
a command pending. The perform goes on and records no error either way. -/
def Obligations.PerformMarksUndefinedUse : Prop :=
  (∀ (i : Instr) (s : State), ∃ t, exec i s = .next t ∧
    (t.mark = true ↔ s.mark = true ∨ (∃ k, usesData i k = true ∧ (s.pend.operand k).written = false) ∨
      (i ≠ .init ∧ (s.a.written = false ∨ s.b.written = false ∨ s.c.written = false ∨ s.len.written = false))) ∧
    t.err = s.err ∧ t.errCode = s.errCode) ∧
  (∀ (i : Instr) (s : State), s.Inv → s.busy = true → s.pend.cmd = some i → i ≠ .init →
    s.a.written = true ∧ s.b.written = true ∧ s.c.written = true ∧ s.len.written = true)

/-- R149, the ignored lanes: FINAL from two states whose operand words agree on the lanes it uses ends in states that
differ in nothing but those operand words. -/
def Obligations.FinalIgnoresUnusedLanes : Prop :=
  ∀ (rem : BitVec 4) (s t : State) (v0 v1 v2 : Word),
    v0 &&& tailMask 0 rem.toNat = s.pend.d0.bits &&& tailMask 0 rem.toNat →
    v1 &&& tailMask 1 rem.toNat = s.pend.d1.bits &&& tailMask 1 rem.toNat →
    v2 &&& tailMask 2 rem.toNat = s.pend.d2.bits &&& tailMask 2 rem.toNat →
    exec (.final rem) s = .next t →
    exec (.final rem) { s with pend := ⟨s.pend.cmd, ⟨v0, s.pend.d0.written⟩, ⟨v1, s.pend.d1.written⟩,
                                        ⟨v2, s.pend.d2.written⟩⟩ } =
      .next { t with pend := ⟨s.pend.cmd, ⟨v0, s.pend.d0.written⟩, ⟨v1, s.pend.d1.written⟩,
                              ⟨v2, s.pend.d2.written⟩⟩ }

/-- R144: nothing of an earlier hash survives INIT: from two states with the same written seed operand it leaves the same
A, B, C, LEN and PHASE, whatever hash was in progress. -/
def Obligations.InitAbandonsTheEarlierHash : Prop :=
  ∀ s s' t t' : State, s.pend.d0 = s'.pend.d0 → s.pend.d0.written = true →
    exec .init s = .next t → exec .init s' = .next t' →
    t.a = t'.a ∧ t.b = t'.b ∧ t.c = t'.c ∧ t.len = t'.len ∧ t.phase = t'.phase

/-- R145: an accepted INIT clears the recorded error at its issue; no perform changes it; and any other CMD write, an
illegal word or an INIT while busy among them, keeps the recorded error and its code. An error raised after the issue,
while the INIT is pending, is recorded and kept by the perform. -/
def Obligations.InitClearsErrorAtIssue : Prop :=
  (∀ s : State, s.busy = false →
    (issueCmd 0x00000001#32 s).err = false ∧ (issueCmd 0x00000001#32 s).errCode = .noError ∧
    (issueCmd 0x00000001#32 s).busy = true) ∧
  (∀ (i : Instr) (s t : State), exec i s = .next t → t.err = s.err ∧ t.errCode = s.errCode) ∧
  (∀ (w : Word) (s : State), s.err = true → s.busy = true ∨ decode w ≠ .ok .init →
    (issueCmd w s).err = true ∧ (issueCmd w s).errCode = s.errCode) ∧
  (∀ (s t : State) (code : ErrorCode), s.busy = false →
    exec .init (raiseError code (issueCmd 0x00000001#32 s)) = .next t → t.err = true ∧ t.errCode = code)

/-- R62: the command and its operands are captured whole at the accepted CMD write; a later DATA write changes neither
them nor what the perform of the pending command does, and the next command issued sees it. -/
def Obligations.OperandsAreLatchedAtIssue : Prop :=
  (∀ (s : State) (w : Word) (i : Instr), s.busy = false → decode w = .ok i → i = .init ∨ s.phase = .active →
    (issueCmd w s).pend = ⟨some i, s.data 0, s.data 1, s.data 2⟩) ∧
  (∀ (s : State) (k : Fin 3) (v : Word), (s.setData k v).pend = s.pend) ∧
  (∀ (i : Instr) (s t : State) (k : Fin 3) (v : Word), exec i s = .next t →
    exec i (s.setData k v) = .next (t.setData k v)) ∧
  (∀ (s : State) (k : Fin 3) (v w : Word) (i : Instr), s.busy = false → decode w = .ok i →
    i = .init ∨ s.phase = .active → (issueCmd w (s.setData k v)).pend.operand k = ⟨v, true⟩)

/-- Operand preloading (R241, and program P5 of 95_test_vectors.md: "This holds whether each BLOCK performs before or
after the `DATA` writes that follow it"): with a command pending and a DATA write next, the host's write and the core's
perform lead to the same state in either order. -/
def Obligations.DataWriteCommutesWithPerform : Prop :=
  ∀ (s : State) (i : Instr) (k : Fin 3) (v : Word) (rest : List Input) (ts : List Agent),
    s.busy = true → s.pend.cmd = some i → s.inputs = .write (s.base + (4 + 4 * k.val)) v 32 :: rest →
    ∃ t, Host.Core.run Sys2Proof.core 2 { s with turns := .host :: .core :: ts } = .next t ∧
      Host.Core.run Sys2Proof.core 2 { s with turns := .core :: ts } = .next t ∧
      t.data k = ⟨v, true⟩ ∧ t.busy = false ∧ t.turns = ts

/-! ### Host accesses (43_host_access.md, 20_memory.md) -/

/-- R170: write dispatch. A bad width or alignment, a read-only and a reserved offset raise BAD_ACCESS; 0x00 issues;
0x04, 0x08 and 0x0C write DATA. -/
def Obligations.WriteDispatch : Prop :=
  ∀ (s : State) (off : Offset) (v : Word) (wd : Nat),
    (wd ≠ 32 ∨ off.toNat % 4 ≠ 0 → writeOffset off v wd s = raiseError .badAccess s) ∧
    (wd = 32 → off.toNat = 0 → writeOffset off v wd s = issueCmd v s) ∧
    (wd = 32 → off.toNat = 0x04 → writeOffset off v wd s = { s with data0 := ⟨v, true⟩ }) ∧
    (wd = 32 → off.toNat = 0x08 → writeOffset off v wd s = { s with data1 := ⟨v, true⟩ }) ∧
    (wd = 32 → off.toNat = 0x0C → writeOffset off v wd s = { s with data2 := ⟨v, true⟩ }) ∧
    (wd = 32 → off.toNat % 4 = 0 → 0x10 ≤ off.toNat → writeOffset off v wd s = raiseError .badAccess s)

/-- R171: read dispatch, and a read changes nothing of the block: only the answer the host sees, and, when the answer is
`undefined`, the fault mark and the count of draws. -/
def Obligations.ReadDispatch : Prop :=
  (∀ (s : State) (off : Offset) (wd : Nat),
    (wd ≠ 32 ∨ off.toNat % 4 ≠ 0 → readOffset off wd s = none) ∧
    (off.toNat = 0x00 → readOffset off wd s = none) ∧
    (wd = 32 → off.toNat = 0x04 → readOffset off wd s = s.data0.read?) ∧
    (wd = 32 → off.toNat = 0x08 → readOffset off wd s = s.data1.read?) ∧
    (wd = 32 → off.toNat = 0x0C → readOffset off wd s = s.data2.read?) ∧
    (wd = 32 → off.toNat = 0x10 → readOffset off wd s = some s.status) ∧
    (wd = 32 → off.toNat = 0x14 → readOffset off wd s =
      if s.busy = false ∧ s.phase = .done then s.c.read? else none) ∧
    (wd = 32 → off.toNat = 0x18 → readOffset off wd s =
      if s.busy = false ∧ s.phase ≠ .idle then s.len.read? else none) ∧
    (wd = 32 → off.toNat = 0x1C → readOffset off wd s =
      if s.busy = false ∧ s.phase ≠ .idle then s.a.read? else none) ∧
    (wd = 32 → off.toNat = 0x20 → readOffset off wd s =
      if s.busy = false ∧ s.phase ≠ .idle then s.b.read? else none) ∧
    (wd = 32 → off.toNat = 0x24 → readOffset off wd s =
      if s.busy = false ∧ s.phase ≠ .idle then s.c.read? else none) ∧
    (0x28 ≤ off.toNat → readOffset off wd s = none)) ∧
  (∀ (s : State) (addr wd : Nat), ∃ (ans : Option ReadData) (u : Bool),
    busRead addr wd s = { s with lastRead := ans, mark := s.mark || u, draws := if u then s.draws + 1 else s.draws } ∧
    (u = true ↔ ∃ off, windowOffset s.base addr = some off ∧ readOffset off wd s = none)) ∧
  (∀ (s : State) (addr wd : Nat) (off : Offset) (v : Word), windowOffset s.base addr = some off →
    readOffset off wd s = some v → busRead addr wd s = { s with lastRead := some (.value v) })

/-- R177: the STATUS word of the current state, always defined at offset 0x10; its fields where R30 places them. -/
def Obligations.StatusWordLayout : Prop :=
  ∀ s : State,
    readOffset 0x10#6 32 s = some ((BitVec.ofBool s.busy).setWidth 32 ||| (s.phase.toBits.setWidth 32 <<< 1)
      ||| ((BitVec.ofBool s.err).setWidth 32 <<< 3) ||| (s.errCode.toBits.setWidth 32 <<< 4)) ∧
    s.status.extractLsb' 0 1 = BitVec.ofBool s.busy ∧
    s.status.extractLsb' 1 2 = (match s.phase with | .idle => 0#2 | .active => 1#2 | .done => 2#2) ∧
    s.status.extractLsb' 3 1 = BitVec.ofBool s.err ∧
    s.status.extractLsb' 4 4 = (match s.errCode with
      | .noError => 0#4 | .illegalCmd => 1#4 | .busy => 2#4 | .sequence => 3#4 | .badAccess => 4#4) ∧
    s.status.extractLsb' 8 24 = 0#24

/-- R172 and R173: a DATA write, in every phase and busy or not, changes that register and nothing else, raises no error
and can be repeated; a read gives what was written last, and `undefined` while nothing has been written since reset. -/
def Obligations.DataRegistersReadBack : Prop :=
  ∀ (s : State) (k : Fin 3) (v : Word) (off : Offset), off.toNat = 4 + 4 * k.val →
    readOffset off 32 (writeOffset off v 32 s) = some v ∧
    (∀ j, j ≠ k → (writeOffset off v 32 s).data j = s.data j) ∧
    writeOffset off v 32 s = { s with data0 := (writeOffset off v 32 s).data 0,
                                      data1 := (writeOffset off v 32 s).data 1,
                                      data2 := (writeOffset off v 32 s).data 2 } ∧
    writeOffset off v 32 (writeOffset off v 32 s) = writeOffset off v 32 s ∧
    readOffset off 32 s = (if (s.data k).written then some (s.data k).bits else none) ∧
    readOffset off 32 (applyReset s) = none

/-- The window is the 64 bytes at `BASE` (R50), and an access outside it does not reach the block (R179). That the address
of an access is that of its first byte, whatever its width, is the model's reading (log 11). -/
def Obligations.AccessesOutsideTheWindow : Prop :=
  (∀ (base addr : Nat) (off : Offset), windowOffset base addr = some off ↔ addr = base + off.toNat) ∧
  (∀ (s : State) (addr : Nat) (v : Word) (wd : Nat), addr < s.base ∨ s.base + 64 ≤ addr →
    busWrite addr v wd s = s ∧ busRead addr wd s = s) ∧
  (∀ (s : State) (off : Offset) (v : Word) (wd : Nat),
    busWrite (s.base + off.toNat) v wd s = writeOffset off v wd s ∧
    busRead (s.base + off.toNat) wd s = answerRead (readOffset off wd s) s)

/-! ### Errors (60_exceptions.md) -/

/-- R205: raising an error records the first code and keeps it, changes nothing else of the block, and the block goes on
taking commands: an issue is accepted or not whatever ERR holds. -/
def Obligations.RaiseErrorKeepsTheFirst : Prop :=
  (∀ (code : ErrorCode) (s : State), s.err = false →
    raiseError code s = { s with err := true, errCode := code, mark := true }) ∧
  (∀ (code : ErrorCode) (s : State), s.err = true → raiseError code s = { s with mark := true }) ∧
  (∀ (w : Word) (s : State) (e : Bool) (c : ErrorCode),
    (issueCmd w { s with err := e, errCode := c }).busy = (issueCmd w s).busy ∧
    (issueCmd w { s with err := e, errCode := c }).pend = (issueCmd w s).pend) ∧
  (∀ (i : Instr) (s t : State) (e : Bool) (c : ErrorCode), exec i s = .next t →
    exec i { s with err := e, errCode := c } = .next { t with err := e, errCode := c })

/-- R204: BAD_ACCESS is raised, with no other effect, by a write of a width other than 32 bits, at an offset not a
multiple of 4, to a read-only register or to a reserved offset; and by no other write. -/
def Obligations.BadAccessExactlyWhen : Prop :=
  ∀ (s : State) (off : Offset) (v : Word) (wd : Nat),
    (wd ≠ 32 ∨ off.toNat % 4 ≠ 0 ∨ 0x10 ≤ off.toNat → writeOffset off v wd s = raiseError .badAccess s) ∧
    (wd = 32 → off.toNat % 4 = 0 → off.toNat < 0x10 → s.errCode ≠ .badAccess →
      (writeOffset off v wd s).errCode ≠ .badAccess)

/-- R206: one code per access, the first cause in the order of the rule. With no error recorded before, a write records
an error exactly when one of the causes holds, and the code is that of the first that does. -/
def Obligations.ErrorPriorityOrder : Prop :=
  ∀ (s : State) (off : Offset) (v : Word) (wd : Nat), s.err = false →
    let causes : List (Bool × ErrorCode) :=
      [(decide (wd ≠ 32 ∨ off.toNat % 4 ≠ 0), .badAccess),
       (decide (0x10 ≤ off.toNat), .badAccess),
       (decide (off.toNat = 0) && s.busy, .busy),
       (decide (off.toNat = 0) && (match decode v with | .ok _ => false | .error _ => true), .illegalCmd),
       (decide (off.toNat = 0) && decide (s.phase ≠ .active) &&
          (match decode v with | .ok .block => true | .ok (.final _) => true | _ => false), .sequence)]
    match causes.find? (fun c => c.1) with
    | some c => (writeOffset off v wd s).err = true ∧ (writeOffset off v wd s).errCode = c.2
    | none => (writeOffset off v wd s).err = false

/-- R208: a step clears a recorded error only by the reset input or by a CMD write that issues INIT, and both clear it; an
error raised while one is recorded does not change the code. -/
def Obligations.ErrorClearedOnlyByInitOrReset : Prop :=
  (∀ s t : State, step s = .next t → s.err = true → t.err = false →
    s.nextAgent = .host ∧ ∃ x rest, s.inputs = x :: rest ∧
      (x = .reset ∨ (∃ v, x = .write s.base v 32 ∧ decode v = .ok .init ∧ s.busy = false))) ∧
  (∀ s t : State, step s = .next t → s.err = true → t.err = true → t.errCode = s.errCode) ∧
  (∀ s : State, (applyReset s).err = false ∧ (applyReset s).errCode = .noError) ∧
  (∀ (s : State) (rest : List Input), s.busy = false → s.inputs = .write s.base 0x00000001#32 32 :: rest →
    ∃ t, step s = .next t ∧ t.err = false ∧ t.errCode = .noError)

/-- R212: the fault mark. A step never clears it; it sets it when it raises an error (ERR set before or not), answers a
read with `undefined`, or performs on an `undefined` value, and in no other case. The reset input does not clear it. -/
def Obligations.FaultMarkIsSticky : Prop :=
  (∀ s t : State, step s = .next t → s.mark = true → t.mark = true) ∧
  (∀ (code : ErrorCode) (s : State), (raiseError code s).mark = true) ∧
  (∀ s : State, (answerRead none s).mark = true) ∧
  (∀ (i : Instr) (s t : State), exec i s = .next t → s.performUndefined i = true → t.mark = true) ∧
  (∀ s : State, (applyReset s).mark = s.mark) ∧
  (∀ s t : State, step s = .next t → s.mark = false → t.mark = true →
    (s.nextAgent = .core ∧ ∃ i, s.pend.cmd = some i ∧ s.performUndefined i = true) ∨
    (s.nextAgent = .host ∧ ∃ x rest, s.inputs = x :: rest ∧
      ((∃ addr wd off, x = .read addr wd ∧ windowOffset s.base addr = some off ∧ readOffset off wd s = none) ∨
       (∃ addr v wd code, x = .write addr v wd ∧ t = raiseError code { s.passTurn with inputs := rest }))))

/-! ### Whole-machine rules -/

/-- A step runs the pending command: while `BUSY = 1` and the turn is the core's, step is exec of the command in PEND at
that state, with the turn used up. -/
def Obligations.StepRunsThePendingCommand : Prop :=
  ∀ (s : State) (i : Instr), s.busy = true → s.pend.cmd = some i → s.turns.head? ≠ some .host →
    step s = exec i { s with turns := s.turns.tail }

/-- A step runs the host's next access when the turn is the host's; with none left nothing moves (log 7, the model's
choice). With `BUSY = 0` the core is not enabled (R150). -/
def Obligations.StepRunsTheNextInput : Prop :=
  (∀ (s : State) (x : Input) (rest : List Input), s.busy = false → s.inputs = x :: rest →
    step s = .next (applyInput x { s with inputs := rest })) ∧
  (∀ (s : State) (x : Input) (rest : List Input) (ts : List Agent), s.busy = true → s.turns = .host :: ts →
    s.inputs = x :: rest → step s = .next (applyInput x { s with inputs := rest, turns := ts })) ∧
  (∀ s : State, s.busy = false → s.inputs = [] → step s = .next s)

/-- A placed command word is what the very next step performs (log 23, the model's own interface): the word's command,
on DATA as it stands. -/
def Obligations.PlacedWordRunsNext : Prop :=
  ∀ (s : State) (w : Nat) (i : Instr), w < 2 ^ 32 → decode (BitVec.ofNat 32 w) = .ok i →
    decodeTableWord 32 w = some i ∧
    step (s.withFetchWord 32 w) =
      exec i { s with pend := ⟨some i, s.data0, s.data1, s.data2⟩, busy := true }

/-- A, B, C and LEN change only by a perform of the pending command or by the reset input: no host access writes them
(R20, R23). -/
def Obligations.AccumulatorsChangeOnlyByPerformOrReset : Prop :=
  ∀ s t : State, step s = .next t → ¬(t.a = s.a ∧ t.b = s.b ∧ t.c = s.c ∧ t.len = s.len) →
    (s.nextAgent = .core ∧ s.busy = true ∧ ∃ i, s.pend.cmd = some i) ∨
    (s.nextAgent = .host ∧ ∃ rest, s.inputs = .reset :: rest)

/-- PHASE moves only by a perform and by reset (R25): INIT enters ACTIVE, FINAL enters DONE, BLOCK keeps it, and only the
reset input returns to IDLE. -/
def Obligations.PhaseTransitions : Prop :=
  (∀ s t : State, step s = .next t → t.phase ≠ s.phase →
    (s.nextAgent = .core ∧ s.pend.cmd = some .init ∧ t.phase = .active) ∨
    (s.nextAgent = .core ∧ (∃ rem, s.pend.cmd = some (.final rem)) ∧ t.phase = .done) ∨
    (s.nextAgent = .host ∧ (∃ rest, s.inputs = .reset :: rest) ∧ t.phase = .idle)) ∧
  (∀ s t : State, step s = .next t → s.phase ≠ .idle → t.phase = .idle →
    s.nextAgent = .host ∧ ∃ rest, s.inputs = .reset :: rest)

/-- BUSY is set only by an accepted CMD write, which latches the command into PEND, and lifted only by the core's perform
or by reset (R26, R243). -/
def Obligations.BusySetByIssueLiftedByPerform : Prop :=
  (∀ s t : State, step s = .next t → s.busy = false → t.busy = true →
    ∃ v rest i, s.inputs = .write s.base v 32 :: rest ∧ decode v = .ok i ∧ (i = .init ∨ s.phase = .active) ∧
      t.pend = ⟨some i, s.data0, s.data1, s.data2⟩) ∧
  (∀ s t : State, step s = .next t → s.busy = true → t.busy = false →
    (s.nextAgent = .core ∧ ∃ i, s.pend.cmd = some i) ∨ (s.nextAgent = .host ∧ ∃ rest, s.inputs = .reset :: rest)) ∧
  (∀ s t : State, step s = .next t → s.busy = true → t.busy = true → t.pend = s.pend)

/-- DATA changes only by a host write of it, which leaves the written word there, or by reset: performs and errors never
change it (R28). -/
def Obligations.DataChangesOnlyByHostWrites : Prop :=
  ∀ (s t : State) (k : Fin 3), step s = .next t → t.data k ≠ s.data k →
    s.nextAgent = .host ∧ ∃ x rest, s.inputs = x :: rest ∧
      ((∃ v, x = .write (s.base + (4 + 4 * k.val)) v 32 ∧ t.data k = ⟨v, true⟩) ∨
       (x = .reset ∧ (t.data k).written = false))

/-- `BASE`, what the host has still to do and the choice of turns are not the block's to change: a step keeps `BASE`, and
takes at most one input and one turn from their lists (a POLL that reads `BUSY = 1` stays). -/
def Obligations.StepConsumesInOrder : Prop :=
  ∀ s t : State, step s = .next t →
    t.base = s.base ∧
    (t.inputs = s.inputs ∨ t.inputs = s.inputs.tail) ∧
    (t.turns = s.turns ∨ (s.busy = true ∧ t.turns = s.turns.tail)) ∧
    (s.nextAgent = .core → t.inputs = s.inputs)

/-- A POLL ends exactly when its STATUS read returns `BUSY = 0` (R60, R81): one step of it reads the STATUS word, changes
no register, and leaves the POLL in place while a command is pending. -/
def Obligations.PollWaitsForBusyClear : Prop :=
  ∀ (s : State) (rest : List Input), s.inputs = .poll :: rest → s.nextAgent = .host →
    step s = .next { s.passTurn with
      lastRead := some (.value s.status)
      inputs := if s.status.getLsbD 0 then .poll :: rest else rest }

/-- The invariant of the block is kept by every step that answers a next state. -/
def Obligations.StepKeepsInvariant : Prop :=
  ∀ s t : State, s.Inv → step s = .next t → t.Inv

/-- The state after reset meets the invariant. -/
def Obligations.ResetMeetsInvariant : Prop := State.reset.Inv

/-- From a state of the invariant the machine always goes on: no step faults or refuses (R205, R211: "Every error is
recorded in `STATUS` and execution goes on"). -/
def Obligations.MachineNeverStops : Prop :=
  ∀ s : State, s.Inv → ∃ t, step s = .next t

/-- BUSY is lifted within `turns + 1` steps, whatever the inputs and the order of the turns (R243, LATENCY finite, R7);
and with no reset among the inputs, which would discard the command (R231), the step that lifts it is the core's perform:
exec of the command that was pending, still in PEND with its operands. The fairness this rests on is built into the
model's turns (log 6). -/
def Obligations.PendingCommandIsPerformed : Prop :=
  ∀ s : State, s.Inv → s.busy = true → ∃ (n : Nat) (t : State), n ≤ s.turns.length ∧
    Host.Core.run Sys2Proof.core (n + 1) s = .next t ∧ t.busy = false ∧
    (Input.reset ∉ s.inputs → ∃ (u : State) (i : Instr), Host.Core.run Sys2Proof.core n s = .next u ∧
      u.nextAgent = .core ∧ u.busy = true ∧ u.pend = s.pend ∧ s.pend.cmd = some i ∧ exec i u.passTurn = .next t)

/-- The bits an unwritten register holds never matter: from two states that differ only in such bits, a step leads to two
states that differ only in such bits, with the same answer to the host. For a step that uses no `undefined` value the
ground is R232, "No rule depends on them". For a step that uses one this is the model's choice (log 1, log 2): it draws a
free value in place of the bits, where the hardware computes from the bits it holds (R34, R151). -/
def Obligations.UnwrittenBitsNeverMatter : Prop :=
  ∀ s s' t : State, s.erase = s'.erase → step s = .next t → ∃ t', step s' = .next t' ∧ t.erase = t'.erase

/-! ### Reset (10_state.md R37, 70_reset_and_hazards.md) -/

/-- R37: after reset A, B, C, LEN and DATA are unwritten, PHASE is IDLE, BUSY, ERR and ERRCODE are 0, PEND is empty,
STATUS reads 0 and RESULT and the ACC registers read `undefined`. The last two lines say the same of every state the
reset input leaves. -/
def Obligations.ResetValues : Prop :=
  ∀ s : State, s = State.reset ∨ (∃ u, s = applyReset u) →
    s.a.written = false ∧ s.b.written = false ∧ s.c.written = false ∧ s.len.written = false ∧
    (∀ k, (s.data k).written = false) ∧
    s.phase = .idle ∧ s.busy = false ∧ s.pend.cmd = none ∧ s.err = false ∧ s.errCode = .noError ∧
    readOffset 0x10#6 32 s = some 0x00000000#32 ∧
    readOffset 0x14#6 32 s = none ∧ readOffset 0x1C#6 32 s = none ∧ readOffset 0x20#6 32 s = none ∧
    readOffset 0x24#6 32 s = none

/-- R231: reset while a command is pending discards it: nothing is left to perform and the core is not enabled. The hash
in progress and a result not yet read are lost, and the fault mark stays. -/
def Obligations.ResetDiscardsThePendingCommand : Prop :=
  ∀ (s t : State) (rest : List Input), s.nextAgent = .host → s.inputs = .reset :: rest → step s = .next t →
    t.busy = false ∧ t.pend.cmd = none ∧ t.nextAgent = .host ∧ t.mark = s.mark ∧ t.inputs = rest ∧
    t.a.written = false ∧ t.c.written = false ∧ readOffset 0x14#6 32 t = none

/-! ### The reference function (40_reference_function.md) -/

/-- The block loop of R100 absorbs `floor(len / 12)` blocks and leaves `len mod 12` bytes (R102), and gives the
accumulators after that many turns of its body. -/
def Obligations.BlockLoopAbsorbsWholeBlocks : Prop :=
  ∀ (msg : List Byte) (seed : Word),
    absorbLoop msg msg.length 0 (hashInit seed) =
      (12 * (msg.length / 12), afterBlocks msg seed (msg.length / 12)) ∧
    msg.length - 12 * (msg.length / 12) = msg.length % 12 ∧ msg.length % 12 < 12

/-- R106: the cascade of conditional byte additions of R104 equals three additions of masked words, whatever the ignored
lanes hold, and it commutes with the length fold. -/
def Obligations.TailMergeAsMaskedWords : Prop :=
  ∀ (msg : List Byte) (pos rem : Nat) (m : Acc) (T : Fin 3 → Word), rem ≤ 11 → pos + rem ≤ msg.length →
    (∀ (k : Fin 3) (j : Nat), j < 4 → 4 * k.val + j < rem →
      some (lane (T k) j) = msg[pos + (4 * k.val + j)]?) →
    tailMerge msg pos rem m =
      ⟨m.a + (T 0 &&& tailMask 0 rem), m.b + (T 1 &&& tailMask 1 rem), m.c + (T 2 &&& tailMask 2 rem) <<< 8⟩ ∧
    (∀ n, tailMerge msg pos rem (foldLength n m) = foldLength n (tailMerge msg pos rem m))

/-- R105: adding the length and adding it modulo 2^32 are the same; so a counter of 32 bits is exact. -/
def Obligations.LengthFoldWraps : Prop :=
  ∀ (n k : Nat) (m : Acc),
    foldLength n m = foldLength (n % 2 ^ 32) m ∧
    BitVec.ofNat 32 n + BitVec.ofNat 32 k = BitVec.ofNat 32 ((n + k) % 2 ^ 32)

/-- R109: the empty message takes the length-only path: `Hash([], s)` is the `C` output of one mix. -/
def Obligations.EmptyMessageIsOneMix : Prop :=
  ∀ s : Word, referenceHash [] s = (mix ⟨0x9E3779B9#32, 0x9E3779B9#32, s⟩).c

/-- R153: after INIT `s` and BLOCKs over the first `12i` bytes, each waited out, the accumulators are those of R100 after
`i` turns of its loop and `LEN = 12i mod 2^32`, whatever the order of the turns; the ACC registers and LEN read them. That every POLL ends rests on fairness (R243, log
6). -/
def Obligations.IntermediateStateFollowsTheLoop : Prop :=
  ∀ (s : State) (msg : List Byte) (seed : Word) (i : Nat) (rest : List Input),
    s.busy = false → 12 * i ≤ msg.length → s.inputs = asmInit s.base seed ++ asmBlocks s.base msg i ++ rest →
    ∃ (n : Nat) (t : State), Host.Core.run Sys2Proof.core n s = .next t ∧ t.inputs = rest ∧ t.busy = false ∧
      readOffset 0x1C#6 32 t = some (afterBlocks msg seed i).a ∧
      readOffset 0x20#6 32 t = some (afterBlocks msg seed i).b ∧
      readOffset 0x24#6 32 t = some (afterBlocks msg seed i).c ∧
      readOffset 0x18#6 32 t = some (BitVec.ofNat 32 (12 * i)) ∧
      t.phase = .active ∧ t.mark = s.mark

/-- R152: the canonical sequence computes `Hash`. For every message and seed, every tail word whose used lanes hold the
tail bytes (the other lanes hold anything), every earlier state with no command pending and every order of the turns,
the run comes to `PHASE = DONE`, `BUSY = 0`, `LEN = n mod 2^32` and `RESULT = Hash(msg, s)`, with no error and no fault
mark set on the way. That the run comes to its end rests on the fairness of the core (R243), which the model's turns have
built in (log 6). -/
def Obligations.CanonicalSequenceComputesHash : Prop :=
  ∀ (s : State) (msg : List Byte) (seed : Word) (T : Fin 3 → Word) (rest : List Input),
    s.busy = false →
    (∀ (k : Fin 3) (j : Nat), j < 4 → 4 * k.val + j < msg.length % 12 →
      some (lane (T k) j) = msg[12 * (msg.length / 12) + (4 * k.val + j)]?) →
    s.inputs = canonicalSequence s.base msg seed (T 0) (T 1) (T 2) ++ rest →
    ∃ (n : Nat) (t : State), Host.Core.run Sys2Proof.core n s = .next t ∧ t.inputs = rest ∧
      t.phase = .done ∧ t.busy = false ∧
      readOffset 0x18#6 32 t = some (BitVec.ofNat 32 msg.length) ∧
      readOffset 0x14#6 32 t = some (referenceHash msg seed) ∧
      t.err = false ∧ t.mark = s.mark

/-- The HASH pseudo-instruction (R82) ends with the answer `Hash(msg, seed)` on the read bus; without a seed it is
`Hash(msg, 0)` (R111). That every POLL ends rests on fairness (R243, log 6). -/
def Obligations.HashPseudoInstructionReadsHash : Prop :=
  ∀ (s : State) (msg : List Byte) (rest : List Input), s.busy = false →
    (∀ seed, s.inputs = asmHash s.base msg seed ++ rest →
      ∃ (n : Nat) (t : State), Host.Core.run Sys2Proof.core n s = .next t ∧ t.inputs = rest ∧
        t.lastRead = some (.value (referenceHash msg seed)) ∧ t.mark = s.mark) ∧
    (s.inputs = asmHashDefault s.base msg ++ rest →
      ∃ (n : Nat) (t : State), Host.Core.run Sys2Proof.core n s = .next t ∧ t.inputs = rest ∧
        t.lastRead = some (.value (referenceHash msg 0#32)) ∧ t.mark = s.mark)

/-! ### A platform of several blocks (20_memory.md R64, 60_exceptions.md R216) -/

/-- No state is shared between instances: a step of one block leaves every other as it was, and on a well-formed platform
an access at an address in one block's window leaves every other block as it was and does to that block what the same
access does to it alone. -/
def Obligations.PlatformBlocksAreIndependent : Prop :=
  (∀ (p q : Platform) (k j : Nat), p.stepAt k = .next q → j ≠ k → q.blocks[j]? = p.blocks[j]?) ∧
  (∀ (p : Platform) (k j : Nat) (s : State) (addr : Nat) (v : Word) (wd : Nat) (off : Offset), p.wf = true →
    p.blocks[k]? = some s → windowOffset s.base addr = some off → j ≠ k →
    (p.busWrite addr v wd).blocks[j]? = p.blocks[j]? ∧ (p.busRead addr wd).blocks[j]? = p.blocks[j]? ∧
    (p.busWrite addr v wd).blocks[k]? = some (writeOffset off v wd s) ∧
    (p.busRead addr wd).blocks[k]? = some (answerRead (readOffset off wd s) s))
end

