-- ==== Sys2Proof/Laws/Decode.lean ====
section
/-! SUPPORT. What the decoder answers (R75 of 30_encoding.md). -/

namespace Sys2Proof

@[simp] theorem decode_init_word : decode 0x00000001#32 = .ok .init := by decide

@[simp] theorem decode_block_word : decode 0x00000002#32 = .ok .block := by decide

/-- Everything the decoder can answer with a command. -/
theorem decode_cases (w : Word) (i : Instr) (h : decode w = .ok i) :
    (i = .init ∧ w = 0x00000001#32) ∨ (i = .block ∧ w = 0x00000002#32) ∨
    (i = .final (remField w) ∧ w &&& 0xFFFFF0FF#32 = 0x00000003#32 ∧ (remField w).toNat ≤ Config.maxTail) := by
  unfold decode at h
  split at h
  · exact .inl ⟨by simpa using h.symm, ‹_›⟩
  · split at h
    · exact .inr (.inl ⟨by simpa using h.symm, ‹_›⟩)
    · split at h
      · exact .inr (.inr ⟨by simpa using h.symm, ‹_›⟩)
      · cases h

/-- A decoded command is well formed (R72, R74). -/
theorem decode_wf (w : Word) (i : Instr) (h : decode w = .ok i) : i.wf = true := by
  obtain ⟨rfl, -⟩ | ⟨rfl, -⟩ | ⟨rfl, -, hr⟩ := decode_cases w i h
  · rfl
  · rfl
  · simpa [Instr.wf] using hr

/-- Each bit of an encoded FINAL: OP is 3, REM stands in [11:8], the rest is 0 (R70, R74). -/
theorem encode_final_getLsbD (rem : BitVec 4) (k : Nat) :
    (encode (.final rem)).getLsbD k = (decide (k < 2) || (decide (8 ≤ k) && rem.getLsbD (k - 8))) := by
  have h4 : ∀ j, 4 ≤ j → rem.getLsbD j = false := fun j hj => BitVec.getLsbD_of_ge rem j hj
  by_cases hk : k < 32
  · by_cases hlt : k < 12
    · interval_cases k <;> simp [encode]
    · interval_cases k <;> simp [encode]
  · rw [BitVec.getLsbD_of_ge _ _ (by omega), h4 _ (by omega)]
    simp; omega

end Sys2Proof
end

