-- ==== Sys2Proof/Laws/State.lean ====
section
/-! SUPPORT. One lemma per field per named update of the state, so that no proof unfolds a record update. -/

namespace Sys2Proof.Machine

/-! ### raiseError -/

@[simp] theorem raiseError_a (code : ErrorCode) (s : State) : (raiseError code s).a = s.a := rfl
@[simp] theorem raiseError_b (code : ErrorCode) (s : State) : (raiseError code s).b = s.b := rfl
@[simp] theorem raiseError_c (code : ErrorCode) (s : State) : (raiseError code s).c = s.c := rfl
@[simp] theorem raiseError_len (code : ErrorCode) (s : State) : (raiseError code s).len = s.len := rfl
@[simp] theorem raiseError_data0 (code : ErrorCode) (s : State) : (raiseError code s).data0 = s.data0 := rfl
@[simp] theorem raiseError_data1 (code : ErrorCode) (s : State) : (raiseError code s).data1 = s.data1 := rfl
@[simp] theorem raiseError_data2 (code : ErrorCode) (s : State) : (raiseError code s).data2 = s.data2 := rfl
@[simp] theorem raiseError_phase (code : ErrorCode) (s : State) : (raiseError code s).phase = s.phase := rfl
@[simp] theorem raiseError_busy (code : ErrorCode) (s : State) : (raiseError code s).busy = s.busy := rfl
@[simp] theorem raiseError_pend (code : ErrorCode) (s : State) : (raiseError code s).pend = s.pend := rfl
@[simp] theorem raiseError_err (code : ErrorCode) (s : State) : (raiseError code s).err = true := rfl
@[simp] theorem raiseError_errCode (code : ErrorCode) (s : State) :
    (raiseError code s).errCode = (if s.err then s.errCode else code) := rfl
@[simp] theorem raiseError_mark (code : ErrorCode) (s : State) : (raiseError code s).mark = true := rfl
@[simp] theorem raiseError_base (code : ErrorCode) (s : State) : (raiseError code s).base = s.base := rfl
@[simp] theorem raiseError_inputs (code : ErrorCode) (s : State) : (raiseError code s).inputs = s.inputs := rfl
@[simp] theorem raiseError_turns (code : ErrorCode) (s : State) : (raiseError code s).turns = s.turns := rfl
@[simp] theorem raiseError_lastRead (code : ErrorCode) (s : State) : (raiseError code s).lastRead = s.lastRead := rfl
@[simp] theorem raiseError_draws (code : ErrorCode) (s : State) : (raiseError code s).draws = s.draws := rfl

/-! ### clearError -/

@[simp] theorem clearError_a (s : State) : (clearError s).a = s.a := rfl
@[simp] theorem clearError_b (s : State) : (clearError s).b = s.b := rfl
@[simp] theorem clearError_c (s : State) : (clearError s).c = s.c := rfl
@[simp] theorem clearError_len (s : State) : (clearError s).len = s.len := rfl
@[simp] theorem clearError_data0 (s : State) : (clearError s).data0 = s.data0 := rfl
@[simp] theorem clearError_data1 (s : State) : (clearError s).data1 = s.data1 := rfl
@[simp] theorem clearError_data2 (s : State) : (clearError s).data2 = s.data2 := rfl
@[simp] theorem clearError_phase (s : State) : (clearError s).phase = s.phase := rfl
@[simp] theorem clearError_busy (s : State) : (clearError s).busy = s.busy := rfl
@[simp] theorem clearError_pend (s : State) : (clearError s).pend = s.pend := rfl
@[simp] theorem clearError_err (s : State) : (clearError s).err = false := rfl
@[simp] theorem clearError_errCode (s : State) : (clearError s).errCode = .noError := rfl
@[simp] theorem clearError_mark (s : State) : (clearError s).mark = s.mark := rfl
@[simp] theorem clearError_base (s : State) : (clearError s).base = s.base := rfl
@[simp] theorem clearError_inputs (s : State) : (clearError s).inputs = s.inputs := rfl
@[simp] theorem clearError_turns (s : State) : (clearError s).turns = s.turns := rfl
@[simp] theorem clearError_lastRead (s : State) : (clearError s).lastRead = s.lastRead := rfl
@[simp] theorem clearError_draws (s : State) : (clearError s).draws = s.draws := rfl

/-! ### applyReset -/

@[simp] theorem applyReset_a (s : State) : (applyReset s).a = Reg.unwritten := rfl
@[simp] theorem applyReset_b (s : State) : (applyReset s).b = Reg.unwritten := rfl
@[simp] theorem applyReset_c (s : State) : (applyReset s).c = Reg.unwritten := rfl
@[simp] theorem applyReset_len (s : State) : (applyReset s).len = Reg.unwritten := rfl
@[simp] theorem applyReset_data0 (s : State) : (applyReset s).data0 = Reg.unwritten := rfl
@[simp] theorem applyReset_data1 (s : State) : (applyReset s).data1 = Reg.unwritten := rfl
@[simp] theorem applyReset_data2 (s : State) : (applyReset s).data2 = Reg.unwritten := rfl
@[simp] theorem applyReset_phase (s : State) : (applyReset s).phase = .idle := rfl
@[simp] theorem applyReset_busy (s : State) : (applyReset s).busy = false := rfl
@[simp] theorem applyReset_pend (s : State) : (applyReset s).pend = Pend.empty := rfl
@[simp] theorem applyReset_err (s : State) : (applyReset s).err = false := rfl
@[simp] theorem applyReset_errCode (s : State) : (applyReset s).errCode = .noError := rfl
@[simp] theorem applyReset_mark (s : State) : (applyReset s).mark = s.mark := rfl
@[simp] theorem applyReset_base (s : State) : (applyReset s).base = s.base := rfl
@[simp] theorem applyReset_inputs (s : State) : (applyReset s).inputs = s.inputs := rfl
@[simp] theorem applyReset_turns (s : State) : (applyReset s).turns = s.turns := rfl
@[simp] theorem applyReset_lastRead (s : State) : (applyReset s).lastRead = s.lastRead := rfl
@[simp] theorem applyReset_draws (s : State) : (applyReset s).draws = s.draws := rfl

/-! ### State.setAcc -/

@[simp] theorem State.setAcc_a (m : Acc) (s : State) : (s.setAcc m).a = Reg.of m.a := rfl
@[simp] theorem State.setAcc_b (m : Acc) (s : State) : (s.setAcc m).b = Reg.of m.b := rfl
@[simp] theorem State.setAcc_c (m : Acc) (s : State) : (s.setAcc m).c = Reg.of m.c := rfl
@[simp] theorem State.setAcc_len (m : Acc) (s : State) : (s.setAcc m).len = s.len := rfl
@[simp] theorem State.setAcc_data0 (m : Acc) (s : State) : (s.setAcc m).data0 = s.data0 := rfl
@[simp] theorem State.setAcc_data1 (m : Acc) (s : State) : (s.setAcc m).data1 = s.data1 := rfl
@[simp] theorem State.setAcc_data2 (m : Acc) (s : State) : (s.setAcc m).data2 = s.data2 := rfl
@[simp] theorem State.setAcc_phase (m : Acc) (s : State) : (s.setAcc m).phase = s.phase := rfl
@[simp] theorem State.setAcc_busy (m : Acc) (s : State) : (s.setAcc m).busy = s.busy := rfl
@[simp] theorem State.setAcc_pend (m : Acc) (s : State) : (s.setAcc m).pend = s.pend := rfl
@[simp] theorem State.setAcc_err (m : Acc) (s : State) : (s.setAcc m).err = s.err := rfl
@[simp] theorem State.setAcc_errCode (m : Acc) (s : State) : (s.setAcc m).errCode = s.errCode := rfl
@[simp] theorem State.setAcc_mark (m : Acc) (s : State) : (s.setAcc m).mark = s.mark := rfl
@[simp] theorem State.setAcc_base (m : Acc) (s : State) : (s.setAcc m).base = s.base := rfl
@[simp] theorem State.setAcc_inputs (m : Acc) (s : State) : (s.setAcc m).inputs = s.inputs := rfl
@[simp] theorem State.setAcc_turns (m : Acc) (s : State) : (s.setAcc m).turns = s.turns := rfl
@[simp] theorem State.setAcc_lastRead (m : Acc) (s : State) : (s.setAcc m).lastRead = s.lastRead := rfl
@[simp] theorem State.setAcc_draws (m : Acc) (s : State) : (s.setAcc m).draws = s.draws := rfl

/-! ### State.noteUndefined -/

@[simp] theorem State.noteUndefined_a (u : Bool) (s : State) : (s.noteUndefined u).a = s.a := rfl
@[simp] theorem State.noteUndefined_b (u : Bool) (s : State) : (s.noteUndefined u).b = s.b := rfl
@[simp] theorem State.noteUndefined_c (u : Bool) (s : State) : (s.noteUndefined u).c = s.c := rfl
@[simp] theorem State.noteUndefined_len (u : Bool) (s : State) : (s.noteUndefined u).len = s.len := rfl
@[simp] theorem State.noteUndefined_data0 (u : Bool) (s : State) : (s.noteUndefined u).data0 = s.data0 := rfl
@[simp] theorem State.noteUndefined_data1 (u : Bool) (s : State) : (s.noteUndefined u).data1 = s.data1 := rfl
@[simp] theorem State.noteUndefined_data2 (u : Bool) (s : State) : (s.noteUndefined u).data2 = s.data2 := rfl
@[simp] theorem State.noteUndefined_phase (u : Bool) (s : State) : (s.noteUndefined u).phase = s.phase := rfl
@[simp] theorem State.noteUndefined_busy (u : Bool) (s : State) : (s.noteUndefined u).busy = s.busy := rfl
@[simp] theorem State.noteUndefined_pend (u : Bool) (s : State) : (s.noteUndefined u).pend = s.pend := rfl
@[simp] theorem State.noteUndefined_err (u : Bool) (s : State) : (s.noteUndefined u).err = s.err := rfl
@[simp] theorem State.noteUndefined_errCode (u : Bool) (s : State) : (s.noteUndefined u).errCode = s.errCode := rfl
@[simp] theorem State.noteUndefined_mark (u : Bool) (s : State) : (s.noteUndefined u).mark = (s.mark || u) := rfl
@[simp] theorem State.noteUndefined_base (u : Bool) (s : State) : (s.noteUndefined u).base = s.base := rfl
@[simp] theorem State.noteUndefined_inputs (u : Bool) (s : State) : (s.noteUndefined u).inputs = s.inputs := rfl
@[simp] theorem State.noteUndefined_turns (u : Bool) (s : State) : (s.noteUndefined u).turns = s.turns := rfl
@[simp] theorem State.noteUndefined_lastRead (u : Bool) (s : State) : (s.noteUndefined u).lastRead = s.lastRead := rfl
@[simp] theorem State.noteUndefined_draws (u : Bool) (s : State) :
    (s.noteUndefined u).draws = (if u then s.draws + 1 else s.draws) := rfl

/-! ### State.passTurn -/

@[simp] theorem State.passTurn_a (s : State) : (s.passTurn).a = s.a := rfl
@[simp] theorem State.passTurn_b (s : State) : (s.passTurn).b = s.b := rfl
@[simp] theorem State.passTurn_c (s : State) : (s.passTurn).c = s.c := rfl
@[simp] theorem State.passTurn_len (s : State) : (s.passTurn).len = s.len := rfl
@[simp] theorem State.passTurn_data0 (s : State) : (s.passTurn).data0 = s.data0 := rfl
@[simp] theorem State.passTurn_data1 (s : State) : (s.passTurn).data1 = s.data1 := rfl
@[simp] theorem State.passTurn_data2 (s : State) : (s.passTurn).data2 = s.data2 := rfl
@[simp] theorem State.passTurn_phase (s : State) : (s.passTurn).phase = s.phase := rfl
@[simp] theorem State.passTurn_busy (s : State) : (s.passTurn).busy = s.busy := rfl
@[simp] theorem State.passTurn_pend (s : State) : (s.passTurn).pend = s.pend := rfl
@[simp] theorem State.passTurn_err (s : State) : (s.passTurn).err = s.err := rfl
@[simp] theorem State.passTurn_errCode (s : State) : (s.passTurn).errCode = s.errCode := rfl
@[simp] theorem State.passTurn_mark (s : State) : (s.passTurn).mark = s.mark := rfl
@[simp] theorem State.passTurn_base (s : State) : (s.passTurn).base = s.base := rfl
@[simp] theorem State.passTurn_inputs (s : State) : (s.passTurn).inputs = s.inputs := rfl
@[simp] theorem State.passTurn_turns (s : State) :
    (s.passTurn).turns = (if s.busy then s.turns.tail else s.turns) := rfl
@[simp] theorem State.passTurn_lastRead (s : State) : (s.passTurn).lastRead = s.lastRead := rfl
@[simp] theorem State.passTurn_draws (s : State) : (s.passTurn).draws = s.draws := rfl

/-! ### acceptCmd -/

@[simp] theorem acceptCmd_a (i : Instr) (s : State) : (acceptCmd i s).a = s.a := by
  unfold acceptCmd; split <;> rfl
@[simp] theorem acceptCmd_b (i : Instr) (s : State) : (acceptCmd i s).b = s.b := by
  unfold acceptCmd; split <;> rfl
@[simp] theorem acceptCmd_c (i : Instr) (s : State) : (acceptCmd i s).c = s.c := by
  unfold acceptCmd; split <;> rfl
@[simp] theorem acceptCmd_len (i : Instr) (s : State) :
    (acceptCmd i s).len = s.len := by
  unfold acceptCmd; split <;> rfl
@[simp] theorem acceptCmd_data0 (i : Instr) (s : State) :
    (acceptCmd i s).data0 = s.data0 := by
  unfold acceptCmd; split <;> rfl
@[simp] theorem acceptCmd_data1 (i : Instr) (s : State) :
    (acceptCmd i s).data1 = s.data1 := by
  unfold acceptCmd; split <;> rfl
@[simp] theorem acceptCmd_data2 (i : Instr) (s : State) :
    (acceptCmd i s).data2 = s.data2 := by
  unfold acceptCmd; split <;> rfl
@[simp] theorem acceptCmd_phase (i : Instr) (s : State) :
    (acceptCmd i s).phase = s.phase := by
  unfold acceptCmd; split <;> rfl
@[simp] theorem acceptCmd_busy (i : Instr) (s : State) :
    (acceptCmd i s).busy = true := by
  unfold acceptCmd; split <;> rfl
@[simp] theorem acceptCmd_pend (i : Instr) (s : State) :
    (acceptCmd i s).pend = ⟨some i, s.data0, s.data1, s.data2⟩ := by
  unfold acceptCmd; split <;> rfl
@[simp] theorem acceptCmd_err (i : Instr) (s : State) :
    (acceptCmd i s).err = (if i = .init then false else s.err) := by
  unfold acceptCmd; split <;> rfl
@[simp] theorem acceptCmd_errCode (i : Instr) (s : State) :
    (acceptCmd i s).errCode = (if i = .init then .noError else s.errCode) := by
  unfold acceptCmd; split <;> rfl
@[simp] theorem acceptCmd_mark (i : Instr) (s : State) :
    (acceptCmd i s).mark = s.mark := by
  unfold acceptCmd; split <;> rfl
@[simp] theorem acceptCmd_base (i : Instr) (s : State) :
    (acceptCmd i s).base = s.base := by
  unfold acceptCmd; split <;> rfl
@[simp] theorem acceptCmd_inputs (i : Instr) (s : State) :
    (acceptCmd i s).inputs = s.inputs := by
  unfold acceptCmd; split <;> rfl
@[simp] theorem acceptCmd_turns (i : Instr) (s : State) :
    (acceptCmd i s).turns = s.turns := by
  unfold acceptCmd; split <;> rfl
@[simp] theorem acceptCmd_lastRead (i : Instr) (s : State) :
    (acceptCmd i s).lastRead = s.lastRead := by
  unfold acceptCmd; split <;> rfl
@[simp] theorem acceptCmd_draws (i : Instr) (s : State) :
    (acceptCmd i s).draws = s.draws := by
  unfold acceptCmd; split <;> rfl

/-! ### State.setData -/

@[simp] theorem State.setData_a (k : Fin 3) (v : Word) (s : State) :
    (s.setData k v).a = s.a := by
  fin_cases k <;> rfl
@[simp] theorem State.setData_b (k : Fin 3) (v : Word) (s : State) :
    (s.setData k v).b = s.b := by
  fin_cases k <;> rfl
@[simp] theorem State.setData_c (k : Fin 3) (v : Word) (s : State) :
    (s.setData k v).c = s.c := by
  fin_cases k <;> rfl
@[simp] theorem State.setData_len (k : Fin 3) (v : Word) (s : State) :
    (s.setData k v).len = s.len := by
  fin_cases k <;> rfl
@[simp] theorem State.setData_data0 (k : Fin 3) (v : Word) (s : State) :
    (s.setData k v).data0 = (if k = 0 then Reg.of v else s.data0) := by
  fin_cases k <;> rfl
@[simp] theorem State.setData_data1 (k : Fin 3) (v : Word) (s : State) :
    (s.setData k v).data1 = (if k = 1 then Reg.of v else s.data1) := by
  fin_cases k <;> rfl
@[simp] theorem State.setData_data2 (k : Fin 3) (v : Word) (s : State) :
    (s.setData k v).data2 = (if k = 2 then Reg.of v else s.data2) := by
  fin_cases k <;> rfl
@[simp] theorem State.setData_phase (k : Fin 3) (v : Word) (s : State) :
    (s.setData k v).phase = s.phase := by
  fin_cases k <;> rfl
@[simp] theorem State.setData_busy (k : Fin 3) (v : Word) (s : State) :
    (s.setData k v).busy = s.busy := by
  fin_cases k <;> rfl
@[simp] theorem State.setData_pend (k : Fin 3) (v : Word) (s : State) :
    (s.setData k v).pend = s.pend := by
  fin_cases k <;> rfl
@[simp] theorem State.setData_err (k : Fin 3) (v : Word) (s : State) :
    (s.setData k v).err = s.err := by
  fin_cases k <;> rfl
@[simp] theorem State.setData_errCode (k : Fin 3) (v : Word) (s : State) :
    (s.setData k v).errCode = s.errCode := by
  fin_cases k <;> rfl
@[simp] theorem State.setData_mark (k : Fin 3) (v : Word) (s : State) :
    (s.setData k v).mark = s.mark := by
  fin_cases k <;> rfl
@[simp] theorem State.setData_base (k : Fin 3) (v : Word) (s : State) :
    (s.setData k v).base = s.base := by
  fin_cases k <;> rfl
@[simp] theorem State.setData_inputs (k : Fin 3) (v : Word) (s : State) :
    (s.setData k v).inputs = s.inputs := by
  fin_cases k <;> rfl
@[simp] theorem State.setData_turns (k : Fin 3) (v : Word) (s : State) :
    (s.setData k v).turns = s.turns := by
  fin_cases k <;> rfl
@[simp] theorem State.setData_lastRead (k : Fin 3) (v : Word) (s : State) :
    (s.setData k v).lastRead = s.lastRead := by
  fin_cases k <;> rfl
@[simp] theorem State.setData_draws (k : Fin 3) (v : Word) (s : State) :
    (s.setData k v).draws = s.draws := by
  fin_cases k <;> rfl

/-! ### `DATA[k]` -/

@[simp] theorem State.data_zero (s : State) : s.data 0 = s.data0 := rfl
@[simp] theorem State.data_one (s : State) : s.data 1 = s.data1 := rfl
@[simp] theorem State.data_two (s : State) : s.data 2 = s.data2 := rfl
@[simp] theorem Pend.operand_zero (p : Pend) : p.operand 0 = p.d0 := rfl
@[simp] theorem Pend.operand_one (p : Pend) : p.operand 1 = p.d1 := rfl
@[simp] theorem Pend.operand_two (p : Pend) : p.operand 2 = p.d2 := rfl

/-- What `DATA[k] <- v` leaves in each DATA register (R172). -/
theorem State.setData_data (s : State) (k j : Fin 3) (v : Word) :
    (s.setData k v).data j = if j = k then Reg.of v else s.data j := by
  fin_cases k <;> fin_cases j <;> rfl

/-! ### Reading a register -/

@[simp] theorem Reg.read?_of (v : Word) : (Reg.of v).read? = some v := rfl
@[simp] theorem Reg.read?_unwritten : Reg.unwritten.read? = none := rfl
@[simp] theorem Reg.written_unwritten : Reg.unwritten.written = false := rfl

/-- A read of a register answers a value exactly when it is written (R34). -/
theorem Reg.read?_eq_some (r : Reg) (v : Word) : r.read? = some v ↔ r.written = true ∧ r.bits = v := by
  unfold Reg.read?; split <;> simp_all

theorem Reg.read?_eq_none (r : Reg) : r.read? = none ↔ r.written = false := by
  unfold Reg.read?; split <;> simp_all

@[simp] theorem State.valueOf_written (s : State) (src : Config.Source) (r : Reg) (h : r.written = true) :
    s.valueOf src r = r.bits := by simp [State.valueOf, h]

end Sys2Proof.Machine
end

