-- ==== Sys2Proof/Laws/Access.lean ====
section
/-! SUPPORT. What a host access can do to the block, said once per operation (R141, R170, R171). -/

namespace Sys2Proof.Machine

/-- Everything a CMD write can do (R141): the four outcomes in the order of the checks. -/
theorem issueCmd_cases (w : Word) (s : State) :
    (s.busy = true ∧ issueCmd w s = raiseError .busy s) ∨
    (s.busy = false ∧ (∃ e, decode w = .error e) ∧ issueCmd w s = raiseError .illegalCmd s) ∨
    (s.busy = false ∧ (∃ i, decode w = .ok i ∧ s.phaseAllows i = false) ∧ issueCmd w s = raiseError .sequence s) ∨
    (s.busy = false ∧ ∃ i, decode w = .ok i ∧ s.phaseAllows i = true ∧ issueCmd w s = acceptCmd i s) := by
  unfold issueCmd
  cases hb : s.busy
  · simp only [Bool.false_eq_true, if_false, false_and, true_and, false_or]
    cases hd : decode w with
    | error e => exact .inl ⟨⟨e, rfl⟩, rfl⟩
    | ok i =>
      cases hp : s.phaseAllows i
      · exact .inr (.inl ⟨⟨i, rfl, hp⟩, by simp [hp]⟩)
      · exact .inr (.inr ⟨i, rfl, hp, by simp [hp]⟩)
  · simp

/-- Everything a write in the window can do (R170): raise an error, issue a command, or write one DATA register. -/
theorem writeOffset_cases (off : Offset) (v : Word) (width : Nat) (s : State) :
    (∃ code, code ≠ .noError ∧ writeOffset off v width s = raiseError code s) ∨
    (width = 32 ∧ off = 0 ∧ s.busy = false ∧
      ∃ i, decode v = .ok i ∧ s.phaseAllows i = true ∧ writeOffset off v width s = acceptCmd i s) ∨
    (width = 32 ∧ ∃ k : Fin 3, off.toNat = 4 + 4 * k.val ∧ writeOffset off v width s = s.setData k v) := by
  unfold writeOffset
  split
  · rename_i hl
    simp only [legalForm, Bool.and_eq_true, beq_iff_eq] at hl
    obtain ⟨hw, hm⟩ := hl
    have hlt : off.toNat < 64 := off.isLt
    have hq : off.toNat = 4 * (off.toNat / 4) := by omega
    unfold regAt
    split
    · rename_i h0
      split at h0 <;> simp at h0
      rename_i hz
      have hoff : off = 0 := by
        apply BitVec.eq_of_toNat_eq; simp; omega
      obtain ⟨-, h⟩ | ⟨-, -, h⟩ | ⟨-, -, h⟩ | ⟨hb, i, hd, hp, h⟩ := issueCmd_cases v s
      · exact .inl ⟨_, by simp, h⟩
      · exact .inl ⟨_, by simp, h⟩
      · exact .inl ⟨_, by simp, h⟩
      · exact .inr (.inl ⟨hw, hoff, hb, i, hd, hp, h⟩)
    · rename_i h0; split at h0 <;> simp at h0
      exact .inr (.inr ⟨hw, 0, by simp; omega, rfl⟩)
    · rename_i h0; split at h0 <;> simp at h0
      exact .inr (.inr ⟨hw, 1, by simp; omega, rfl⟩)
    · rename_i h0; split at h0 <;> simp at h0
      exact .inr (.inr ⟨hw, 2, by simp; omega, rfl⟩)
    all_goals exact .inl ⟨_, by simp, rfl⟩
  · exact .inl ⟨_, by simp, rfl⟩

/-- What the answer of a read changes: only `lastRead`, and for `undefined` the fault mark and the draw count. -/
theorem answerRead_eq (ans : Option Word) (s : State) :
    ∃ d, answerRead ans s =
      { s with lastRead := some d, mark := s.mark || ans.isNone,
               draws := if ans.isNone then s.draws + 1 else s.draws } := by
  cases ans <;> simp [answerRead, State.noteUndefined]

/-- What one read of POLL changes (R81): only `lastRead`, and the POLL itself is put back while `BUSY = 1`. -/
theorem poll_eq (s : State) :
    poll s = { s with lastRead := some (.value s.status),
                      inputs := if s.busy then .poll :: s.inputs else s.inputs } := by
  unfold poll
  cases h : s.busy <;> simp [answerRead, h]

/-- A bus address is in the window exactly when it is `BASE` plus an offset (R50). -/
theorem windowOffset_eq_some (base addr : Nat) (off : Offset) :
    windowOffset base addr = some off ↔ addr = base + off.toNat := by
  unfold windowOffset Config.windowBytes
  have := off.isLt
  constructor
  · intro h
    split at h
    · rename_i hr
      simp only [Option.some.injEq] at h
      subst h
      simp; omega
    · cases h
  · rintro rfl
    rw [if_pos (by omega)]
    simp

@[simp] theorem windowOffset_base (base : Nat) (off : Offset) :
    windowOffset base (base + off.toNat) = some off := (windowOffset_eq_some _ _ _).2 rfl

/-- Everything an input can do to a state (R12): the reset, or one of six effects that leave the accumulators, LEN and
PHASE as they were. -/
theorem applyInput_cases (x : Input) (s : State) :
    (x = .reset ∧ applyInput x s = applyReset s) ∨
    (applyInput x s = s) ∨
    (∃ addr v wd code, x = .write addr v wd ∧ code ≠ .noError ∧ applyInput x s = raiseError code s) ∨
    (∃ addr v i, x = .write addr v 32 ∧ addr = s.base ∧ s.busy = false ∧ decode v = .ok i ∧ s.phaseAllows i = true ∧
      applyInput x s = acceptCmd i s) ∨
    (∃ (addr : Nat) (v : Word) (k : Fin 3), x = .write addr v 32 ∧ addr = s.base + (4 + 4 * k.val) ∧
      applyInput x s = s.setData k v) ∨
    (∃ addr wd off, x = .read addr wd ∧ windowOffset s.base addr = some off ∧
      applyInput x s = answerRead (readOffset off wd s) s) ∨
    (x = .poll ∧ applyInput x s = poll s) := by
  cases x with
  | reset => exact .inl ⟨rfl, rfl⟩
  | poll => simp [applyInput]
  | read addr wd =>
    cases h : windowOffset s.base addr with
    | none => exact .inr (.inl (by simp [applyInput, busRead, h]))
    | some off =>
      exact .inr (.inr (.inr (.inr (.inr (.inl ⟨addr, wd, off, rfl, h, by simp [applyInput, busRead, h]⟩)))))
  | write addr v wd =>
    cases h : windowOffset s.base addr with
    | none => exact .inr (.inl (by simp [applyInput, busWrite, h]))
    | some off =>
      have ha : applyInput (.write addr v wd) s = writeOffset off v wd s := by simp [applyInput, busWrite, h]
      have hoff := (windowOffset_eq_some _ _ _).1 h
      rw [ha]
      obtain ⟨code, hn, hc⟩ | ⟨rfl, rfl, hb, i, hd, hp, hc⟩ | ⟨rfl, k, hk, hc⟩ := writeOffset_cases off v wd s
      · exact .inr (.inr (.inl ⟨addr, v, wd, code, rfl, hn, hc⟩))
      · exact .inr (.inr (.inr (.inl ⟨addr, v, i, rfl, by simpa using hoff, hb, hd, hp, hc⟩)))
      · exact .inr (.inr (.inr (.inr (.inl ⟨addr, v, k, rfl, by omega, hc⟩))))

end Sys2Proof.Machine
end

