-- ==== Sys2Proof/Laws/Commands.lean ====
section
/-! SUPPORT. What the perform of a command changes, said once for the three commands (R143, R146, R148, R150). -/

namespace Sys2Proof.Machine

/-- The PHASE a perform leaves (R25): INIT enters ACTIVE, BLOCK keeps it, FINAL enters DONE. -/
def phaseAfter : Instr → Phase → Phase
  | .init, _ => .active
  | .block, p => p
  | .final _, _ => .done

/-- Every command answers a next state. It is the state before with the accumulators, LEN and PHASE replaced, BUSY
cleared, and the fault mark set exactly when an `undefined` value was used (R150, R151). -/
theorem exec_eq_next (i : Instr) (s : State) :
    ∃ (m : Acc) (n : Word) (ph : Phase), exec i s = .next
      { s with a := Reg.of m.a, b := Reg.of m.b, c := Reg.of m.c, len := Reg.of n, phase := ph, busy := false,
               mark := s.mark || s.performUndefined i,
               draws := if s.performUndefined i then s.draws + 1 else s.draws } ∧
      ph = phaseAfter i s.phase := by
  cases i with
  | init => exact ⟨_, _, _, rfl, rfl⟩
  | block => exact ⟨_, _, _, rfl, rfl⟩
  | final rem => exact ⟨_, _, _, rfl, rfl⟩

/-- The fields a perform leaves as they were: the operand registers, PEND, the recorded error, and what is outside the
block. -/
theorem exec_frame (i : Instr) (s t : State) (h : exec i s = .next t) :
    t.data0 = s.data0 ∧ t.data1 = s.data1 ∧ t.data2 = s.data2 ∧ t.pend = s.pend ∧ t.err = s.err ∧
    t.errCode = s.errCode ∧ t.base = s.base ∧ t.inputs = s.inputs ∧ t.turns = s.turns ∧ t.lastRead = s.lastRead ∧
    t.busy = false ∧ t.accWritten = true ∧ t.mark = (s.mark || s.performUndefined i) := by
  obtain ⟨m, n, ph, he, -⟩ := exec_eq_next i s
  rw [he] at h
  cases h
  simp [State.accWritten]

/-- The PHASE after a perform (R25). -/
theorem exec_phase (i : Instr) (s t : State) (h : exec i s = .next t) :
    t.phase = phaseAfter i s.phase := by
  obtain ⟨m, n, ph, he, hph⟩ := exec_eq_next i s
  rw [he] at h
  cases h
  exact hph

end Sys2Proof.Machine
end

