-- ==== Sys2Proof/Laws/Mix.lean ====
section
/-! SUPPORT. A line of the mix step and its inverse (R130, R134 of 41_mix_pipeline.md). -/

namespace Sys2Proof.Machine

/-- A line is undone by `unline` with the same `y`, `z` and shifted `z` (R134). -/
@[simp] theorem unline_line (x y z sz : Word) : unline (line x y z sz) y z sz = x := by
  simp [unline, line]
  abel

/-- ... and the other way round. -/
@[simp] theorem line_unline (x y z sz : Word) : line (unline x y z sz) y z sz = x := by
  have h : (x ^^^ sz) + y + z - y - z = x ^^^ sz := by abel
  simp [unline, line, h]

/-- The two subtractions of a line may be swapped or joined (R132). -/
theorem line_eq_sub_add (x y z sz : Word) : line x y z sz = (x - (y + z)) ^^^ sz := by
  simp [line, sub_sub]

end Sys2Proof.Machine
end

