-- ==== Sys2Proof/Laws/PerInstr.lean ====
section
/-! SUPPORT. A law of every command as syntax, one lemma per constructor: its encoding sets no reserved bit (R73 of
30_encoding.md). -/

namespace Sys2Proof.Laws.EncodingReserved

/-- The encoded word has the reserved bits [7:4] and [31:12] clear (R73). -/
def Statement (i : Instr) : Prop := reservedClear (encode i) = true

theorem init : Statement .init := by unfold Statement; decide

theorem block : Statement .block := by unfold Statement; decide

theorem final (rem : BitVec 4) : Statement (.final rem) := by
  unfold Statement; revert rem; decide

end Sys2Proof.Laws.EncodingReserved
end

