-- ==== Sys2Proof/Laws/Step.lean ====
section
/-! SUPPORT. Everything one step can do, said once (R12, R150). -/

namespace Sys2Proof.Machine

/-- The three cases of a step: the host moves, the core performs the command in PEND, or BUSY = 1 with an empty PEND. -/
theorem step_cases (s : State) :
    (s.nextAgent = .host ∧ step s = .next (hostTurn s.passTurn)) ∨
    (s.nextAgent = .core ∧ s.busy = true ∧ ∃ i, s.pend.cmd = some i ∧ step s = exec i s.passTurn) ∨
    (s.nextAgent = .core ∧ s.busy = true ∧ s.pend.cmd = none ∧ step s = .fault .emptyLatch) := by
  unfold step turnStep
  cases hn : s.nextAgent with
  | host => exact .inl ⟨rfl, rfl⟩
  | core =>
    have hb : s.busy = true := by
      unfold State.nextAgent at hn
      cases hb : s.busy <;> simp [hb] at hn ⊢
    cases hc : s.pend.cmd with
    | none => exact .inr (.inr ⟨rfl, hb, rfl, by simp [coreTurn, hc]⟩)
    | some i => exact .inr (.inl ⟨rfl, hb, i, rfl, by simp [coreTurn, hc]⟩)

/-- The host's turn: nothing is left to do, or its next input is applied. -/
theorem hostTurn_cases (s : State) :
    (s.inputs = [] ∧ hostTurn s = s) ∨
    (∃ x rest, s.inputs = x :: rest ∧ hostTurn s = applyInput x { s with inputs := rest }) := by
  unfold hostTurn
  cases h : s.inputs with
  | nil => exact .inl ⟨rfl, rfl⟩
  | cons x rest => exact .inr ⟨x, rest, rfl, rfl⟩

/-- Everything a step that answers a next state did: the core performed the command in PEND, the host had nothing left,
or one input was applied to the state with that input and its turn used up. -/
theorem step_next_cases {s t : State} (h : step s = .next t) :
    (s.nextAgent = .core ∧ s.busy = true ∧ ∃ i, s.pend.cmd = some i ∧ exec i s.passTurn = .next t) ∨
    (s.nextAgent = .host ∧ s.inputs = [] ∧ t = s.passTurn) ∨
    (s.nextAgent = .host ∧ ∃ x rest, s.inputs = x :: rest ∧
      t = applyInput x { s.passTurn with inputs := rest }) := by
  obtain ⟨hn, hs⟩ | ⟨hn, hb, i, hc, hs⟩ | ⟨-, -, -, hs⟩ := step_cases s
  · rw [hs] at h
    cases h
    obtain ⟨hi, ht⟩ | ⟨x, rest, hi, ht⟩ := hostTurn_cases s.passTurn
    · exact .inr (.inl ⟨hn, by simpa using hi, ht⟩)
    · exact .inr (.inr ⟨hn, x, rest, by simpa using hi, ht⟩)
  · exact .inl ⟨hn, hb, i, hc, hs ▸ h⟩
  · rw [hs] at h
    cases h

end Sys2Proof.Machine
end

