-- ==== Sys2Proof/Tests/Slice0.lean ====
section
/-! SUPPORT. Small tests of the model. Every expected value is of 95_test_vectors.md or of an example inside a numbered
rule, named at the test; the words are written out from the encoding of 30_encoding.md. The second half gives, for every
obligation with hypotheses, a concrete state and operands that meet them all, at the boundary values of its clauses. -/

namespace Sys2Proof.Tests

open Sys2Proof.Machine

/-! ### Helpers -/

/-- A block that is not busy, in a phase, with written registers. -/
def block (ph : Phase) (a b c n d0 d1 d2 : Word) : State :=
  { State.reset with
    phase := ph, a := Reg.of a, b := Reg.of b, c := Reg.of c, len := Reg.of n
    data0 := Reg.of d0, data1 := Reg.of d1, data2 := Reg.of d2 }

/-- The state after INIT 0 has been performed, `G` of 95_test_vectors.md section 2.7, with three words in DATA. -/
def started (d0 d1 d2 : Word) : State := block .active 0x9E3779B9 0x9E3779B9 0 0 d0 d1 d2

/-- A command latched with DATA as it stands. -/
def latched (i : Instr) (s : State) : State := { s with pend := ⟨some i, s.data0, s.data1, s.data2⟩, busy := true }

/-- The next state of an outcome, if it is one. -/
def nextOf (o : Host.Outcome State Fault Refusal) : Option State :=
  match o with
  | .next t => some t
  | _ => none

/-- A, B, C and LEN after the perform of a command. -/
def performed (i : Instr) (s : State) : Option (Word × Word × Word × Word) :=
  (nextOf (exec i (latched i s))).map fun t => (t.a.bits, t.b.bits, t.c.bits, t.len.bits)

/-! ### Well-formedness and encoding -/

/-- R72: REM 12 to 15 with FINAL is illegal, so FINAL 12 and FINAL 15 are ill-formed; FINAL 0 and FINAL 11, INIT and
BLOCK are well-formed. -/
theorem test_wf_refuses_ill_formed :
    (Instr.final 12).wf = false ∧ (Instr.final 15).wf = false ∧ (Instr.final 11).wf = true ∧
    (Instr.final 0).wf = true ∧ Instr.init.wf = true ∧ Instr.block.wf = true := by decide

/-- R74: INIT `00000000000000000000000000000001`, bit by bit. -/
theorem test_decode_init : decode 0b00000000000000000000000000000001#32 = .ok .init := by decide

/-- R74: BLOCK `00000000000000000000000000000010`, bit by bit. -/
theorem test_decode_block : decode 0b00000000000000000000000000000010#32 = .ok .block := by decide

/-- R74: FINAL `00000000000000000000RRRR00000011`, bit by bit, with RRRR 0000, 0101 and 1011. -/
theorem test_decode_final :
    decode 0b00000000000000000000000000000011#32 = .ok (.final 0) ∧
    decode 0b00000000000000000000010100000011#32 = .ok (.final 5) ∧
    decode 0b00000000000000000000101100000011#32 = .ok (.final 11) := by decide

/-- 95_test_vectors.md section 2.2: every illegal word of its table. -/
theorem test_decode_illegal :
    ([0x00000000#32, 0x00000C03#32, 0x00000F03#32, 0x00000101#32, 0x00000102#32, 0x00000004#32, 0x0000000F#32,
      0x00000013#32, 0x00010001#32, 0x80000003#32, 0xFFFFFFFF#32].all
        fun w => match decode w with | .ok _ => false | .error _ => true) = true := by decide

/-- R74: the command words of the table. -/
theorem test_encode :
    encode .init = 0x00000001#32 ∧ encode .block = 0x00000002#32 ∧ encode (.final 0) = 0x00000003#32 ∧
    encode (.final 1) = 0x00000103#32 ∧ encode (.final 11) = 0x00000B03#32 := by decide

/-- The table's words, as spec/opcode_table.json numbers their bits. -/
theorem test_decode_table_word :
    decodeTableWord 32 1 = some .init ∧ decodeTableWord 32 2 = some .block ∧
    decodeTableWord 32 0xB03 = some (.final 11) ∧ decodeTableWord 32 0xC03 = none ∧
    decodeTableWord 8 3 = some (.final 0) := by decide

/-! ### Mix, tail masks and the reference function -/

/-- 95_test_vectors.md section 2.1, M2, M6 and M10. -/
theorem test_mix :
    mix ⟨0xFFFFFFFF, 0xFFFFFFFF, 0xFFFFFFFF⟩ = ⟨0xF63930FA, 0x7EF2F972, 0xC9B16DCF⟩ ∧
    mix ⟨0x80000000, 0, 0⟩ = ⟨0xECF0BF7D, 0xCDE4B445, 0xC8E117F5⟩ ∧
    mix ⟨0x01234567, 0x89ABCDEF, 0xFEDCBA98⟩ = ⟨0xFDD6F146, 0xF806B3C6, 0xBCBC483F⟩ := by decide

/-- The worked examples of R121 and R123. -/
theorem test_mix_lines :
    mixLine1 ⟨0x9E3779B9, 0x9E3779B9, 0⟩ = ⟨0, 0x9E3779B9, 0⟩ ∧
    mixLine3 ⟨0, 0x9E3779B9, 0⟩ = ⟨0, 0x9E3779B9, 0x61CC77FC⟩ := by decide

/-- V2 `"a"`, V6 (bytes above 0x7F) and V7 `"this is 11c"` of 95_test_vectors.md section 1.1, and V11c of section 1.2. -/
theorem test_reference_hash :
    referenceHash [0x61] 0 = 703514648#32 ∧ referenceHash [0xFF, 0x80, 0x40, 0x01] 0 = 3359486273#32 ∧
    referenceHash [0x74, 0x68, 0x69, 0x73, 0x20, 0x69, 0x73, 0x20, 0x31, 0x31, 0x63] 0 = 3384459500#32 ∧
    referenceHash [0x68, 0x65, 0x6C, 0x6C, 0x6F] 3070638494 = 1535955511#32 := by decide

/-- Section 2.6, n = 12: a message of one whole block and no tail. -/
theorem test_reference_hash_whole_block :
    referenceHash [0, 1, 2, 3, 4, 5, 6, 7, 8, 9, 10, 11] 0xFFFFFFFF = 1961825389#32 := by decide

/-! ### The commands -/

/-- I3 of section 2.3: INIT with seed 0xB706399E from a state of another hash. -/
theorem test_init :
    performed .init (block .done 1 2 3 4 0xB706399E 5 6) = some (0x9E3779B9, 0x9E3779B9, 0xB706399E, 0) := by decide

/-- I1: after INIT, PHASE is ACTIVE and STATUS reads 0x00000002. -/
theorem test_init_status :
    (nextOf (exec .init (latched .init (block .idle 0 0 0 0 0 0 0)))).map State.status = some 0x00000002#32 := by decide

/-- B1 of section 2.4, "this is 12ch" after INIT 0. -/
theorem test_block :
    performed .block (started 0x73696874 0x20736920 0x68633231) =
      some (0x4BBD3EB1, 0x01760015, 0x9D0358DF, 12) := by decide

/-- B4 of section 2.4: the additions wrap to zero, and zero is a fixed point of Mix. -/
theorem test_block_wraps :
    performed .block (started 0x61C88647 0x61C88647 0) = some (0, 0, 0, 12) := by decide

/-- Section 2.5, rem 1 with junk in the ignored lanes. -/
theorem test_final_one :
    performed (.final 1) (started 0xAAAAAA01 0xAAAAAAAA 0xAAAAAAAA) =
      some (0x9BE0452D, 0xDE6E84B3, 0xB93913A8, 1) := by decide

/-- Section 2.5, rem 11 with junk in the ignored lane. -/
theorem test_final_eleven :
    performed (.final 11) (started 0x04030201 0x08070605 0xAA0B0A09) =
      some (0xF9966E12, 0x2DE15591, 0x95DE59C9, 11) := by decide

/-- The state section 4 P2 reaches after its BLOCK: LEN 12 and FINAL 1 with `"h"` give V9 and LEN 13. -/
theorem test_final_after_block :
    performed (.final 1) (block .active 0x320FB258 0xD55F7E72 0x0F76CAE9 12 0x68 0 0) =
      some (0x8A4EAF2C, 0x7C28ECDA, 0x8A6411AD, 13) := by decide

/-! ### Issue, accesses, errors and STATUS (section 2.7) -/

/-- E1 and E2: after reset STATUS is 0; BLOCK in IDLE is SEQUENCE, STATUS 0x00000038, A unwritten. -/
theorem test_status_sequence :
    State.reset.status = 0x00000000#32 ∧ (busWrite 0 2 32 State.reset).status = 0x00000038#32 ∧
    (busWrite 0 2 32 State.reset).a.written = false := by decide

/-- E3: INIT is accepted in IDLE and clears the recorded error at issue. -/
theorem test_init_clears_error :
    (busWrite 0 1 32 (busWrite 4 0 32 (busWrite 0 2 32 State.reset))).status = 0x00000001#32 := by decide

/-- E4 and E9: a second CMD write while busy is BUSY, an illegal word as well. -/
theorem test_busy_error :
    (busWrite 0 1 32 (busWrite 0 1 32 State.reset)).status = 0x00000029#32 ∧
    (busWrite 0 0xFFFFFFFF 32 (busWrite 0 1 32 State.reset)).status = 0x00000029#32 := by decide

/-- E5 and E8: an illegal word is ILLEGAL_CMD, and a later error keeps the first code. -/
theorem test_illegal_command :
    (busWrite 0 0xC03 32 (started 0 0 0)).status = 0x0000001A#32 ∧
    (busWrite 0x10 0 32 (busWrite 0 0 32 (started 0 0 0))).status = 0x0000001A#32 := by decide

/-- E7b, E10, E11 and E12: the four forms of BAD_ACCESS; DATA0 keeps its value. -/
theorem test_bad_access :
    (busWrite 0x14 0 32 (block .done 0 0 0 0 0 0 0)).status = 0x0000004C#32 ∧
    (busWrite 0x04 0x55 16 (busWrite 4 0x11223344 32 State.reset)).status = 0x00000048#32 ∧
    (busWrite 0x04 0x55 16 (busWrite 4 0x11223344 32 State.reset)).data0 = ⟨0x11223344, true⟩ ∧
    (busWrite 0x06 0 32 (busWrite 4 0x11223344 32 State.reset)).data0 = ⟨0x11223344, true⟩ ∧
    (busWrite 0x28 0 32 State.reset).status = 0x00000048#32 := by decide

/-- R173's example: after `WR DATA1, 5`, `RD DATA1` returns 5; before it the read is `undefined`. -/
theorem test_data_read_back :
    readOffset 8 32 (busWrite 8 5 32 State.reset) = some 5#32 ∧ readOffset 8 32 State.reset = none := by decide

/-- E14 and E15: RD RESULT in ACTIVE and RD CMD are `undefined`, and the read sets the fault mark and no error. -/
theorem test_undefined_reads :
    readOffset 0x14 32 (started 0 0 0) = none ∧ readOffset 0 32 (started 0 0 0) = none ∧
    (busRead 0x14 32 (started 0 0 0)).mark = true ∧ (busRead 0x14 32 (started 0 0 0)).status = 0x00000002#32 := by
  decide

/-- Section 4 P2's end state: RESULT, LEN and the ACC registers in DONE. -/
theorem test_readback :
    let s := block .done 0x8A4EAF2C 0x7C28ECDA 0x8A6411AD 13 0 0 0
    readOffset 0x14 32 s = some 2321813933#32 ∧ readOffset 0x18 32 s = some 13#32 ∧
    readOffset 0x1C 32 s = some 0x8A4EAF2C#32 ∧ readOffset 0x20 32 s = some 0x7C28ECDA#32 ∧
    readOffset 0x24 32 s = some 0x8A6411AD#32 ∧ readOffset 0x14 32 (latched .init s) = none := by decide

/-- E13: INIT with DATA0 never written is accepted, and its perform goes on and sets the fault mark. -/
theorem test_undefined_seed :
    (busWrite 0 1 32 State.reset).status = 0x00000001#32 ∧ (busWrite 0 1 32 State.reset).mark = false ∧
    (nextOf (step (busWrite 0 1 32 State.reset))).map (fun t => (t.mark, t.status)) = some (true, 0x00000002#32) := by
  decide

/-- The word placed by the host's interface is what the next step performs, and an illegal word raises ILLEGAL_CMD. -/
theorem test_placed_word :
    (nextOf (step ((started 0x61 0 0).withFetchWord 32 0x103))).map (fun t => t.c.bits) = some 703514648#32 ∧
    (nextOf (step (State.reset.withFetchWord 32 0))).map State.status = some 0x00000018#32 := by decide

/-! ### Witnesses: the hypotheses of each obligation are met -/

/-- A block with one host access to come. -/
def withInput (x : Input) (s : State) : State := { s with inputs := [x] }

theorem test_witness_LegalWords :
    decode 0x00000003#32 = .ok (.final 0) ∧ decode 0x00000B03#32 = .ok (.final 11) ∧
    (match decode 0x00000C03#32 with | .ok _ => false | .error _ => true) = true := by decide

theorem test_witness_Fields :
    decode 0x00000001#32 = .ok .init ∧ decode 0x00000002#32 = .ok .block ∧ decode 0x00000B03#32 = .ok (.final 11) ∧
    (0x00000013#32).extractLsb' 4 4 ≠ 0#4 ∧ (0x00000083#32).extractLsb' 4 4 ≠ 0#4 ∧
    (0x00001003#32).extractLsb' 12 20 ≠ 0#20 ∧ (0x80000003#32).extractLsb' 12 20 ≠ 0#20 ∧
    (0x00000100#32).extractLsb' 0 4 = 0#4 ∧ 4 ≤ ((0x00000004#32).extractLsb' 0 4).toNat ∧
    4 ≤ ((0x0000000F#32).extractLsb' 0 4).toNat ∧
    (0x00000101#32).extractLsb' 0 4 = 1#4 ∧ (0x00000101#32).extractLsb' 8 4 ≠ 0#4 ∧
    (0x00000F02#32).extractLsb' 0 4 = 2#4 ∧ (0x00000F02#32).extractLsb' 8 4 ≠ 0#4 ∧
    (0x00000C03#32).extractLsb' 0 4 = 3#4 ∧ 12 ≤ ((0x00000C03#32).extractLsb' 8 4).toNat := by decide

theorem test_witness_DecodeEncodeAgree :
    Instr.init.wf = true ∧ Instr.block.wf = true ∧ (Instr.final 0).wf = true ∧ (Instr.final 11).wf = true ∧
    decode 0x00000B03#32 = .ok (.final 11) := by decide

/-- A message of four bytes: its last byte in lane 3, and a tail of three of them with lane 3 left out. -/
theorem test_witness_OperandWords :
    (0 + 4 * 0 + 3 < ([1, 2, 3, 4] : List Byte).length) ∧ (1 + 3 ≤ ([1, 2, 3, 4] : List Byte).length) ∧
    4 * 0 + 2 < 3 ∧ 3 ≤ 4 * 0 + 3 := by decide

theorem test_witness_TailMaskLanes : 3 < 4 ∧ 7 < 8 ∧ (tailMask 2 11).getLsbD (8 * 3 + 7) = false := by decide

/-- A used operand that is unwritten; and FINAL 4, which uses `DATA[0]` only, with the other two unwritten. -/
theorem test_witness_UsedOperands :
    (∃ t, exec (.final 1) { started 0 0 0 with pend := Pend.empty } = .next t) ∧ usesData (.final 1) 0 = true ∧
    (Pend.empty.operand 0).written = false ∧
    (∃ t, exec (.final 4) { started 0 0 0 with pend := ⟨some (.final 4), Reg.of 0, Reg.unwritten, Reg.unwritten⟩ } =
      .next t) ∧
    (∀ k, usesData (.final 4) k = true →
      ((⟨some (.final 4), Reg.of 0, Reg.unwritten, Reg.unwritten⟩ : Pend).operand k).written = true) ∧
    (started 0 0 0).accWritten = true := ⟨⟨_, rfl⟩, by decide, by decide, ⟨_, rfl⟩, by decide, by decide⟩

/-- The four cases of an issue, the phase clause in IDLE and in DONE, the accepted one for INIT in IDLE and for BLOCK in
ACTIVE. -/
theorem test_witness_IssueFollowsTheChecks :
    (latched .init State.reset).busy = true ∧ State.reset.busy = false ∧ decode 0#32 = .error .reservedOp ∧
    decode 2#32 = .ok .block ∧ Instr.block ≠ .init ∧ State.reset.phase ≠ .active ∧
    (block .done 0 0 0 0 0 0 0).busy = false ∧ (block .done 0 0 0 0 0 0 0).phase ≠ .active ∧
    decode 1#32 = .ok .init ∧ (started 0 0 0).busy = false ∧ (started 0 0 0).phase = .active := by decide

theorem test_witness_InitCommand :
    State.reset.busy = false ∧ (latched .block (started 0 0 0)).busy = true ∧
    (0x00000101#32).extractLsb' 0 4 = 1#4 ∧ 0x00000101#32 ≠ 0x00000001#32 ∧
    (latched .init (started 7 0 0)).pend.d0.written = true ∧ (latched .init State.reset).pend.d0.written = false := by
  decide

theorem test_witness_BlockCommand :
    (started 0 0 0).busy = false ∧ (started 0 0 0).phase = .active ∧ (latched .init State.reset).busy = true ∧
    (0x00000102#32).extractLsb' 0 4 = 2#4 ∧ 0x00000102#32 ≠ 0x00000002#32 ∧ State.reset.phase = .idle ∧
    (block .done 0 0 0 0 0 0 0).phase = .done ∧ (latched .block (started 1 2 3)).accWritten = true ∧
    (∀ k, ((latched .block (started 1 2 3)).pend.operand k).written = true) := by decide

/-- FINAL 0 with no operand written, and FINAL 11 with all three. -/
theorem test_witness_FinalCommand :
    (11#4).toNat ≤ 11 ∧ (started 0 0 0).busy = false ∧ (started 0 0 0).phase = .active ∧
    (latched .init State.reset).busy = true ∧
    (0x00000C03#32).extractLsb' 0 4 = 3#4 ∧ 12 ≤ ((0x00000C03#32).extractLsb' 8 4).toNat ∧
    (0x00000013#32).extractLsb' 4 4 ≠ 0#4 ∧ (0x00001003#32).extractLsb' 12 20 ≠ 0#20 ∧
    State.reset.phase = .idle ∧ (block .done 0 0 0 0 0 0 0).phase = .done ∧
    (started 0 0 0).accWritten = true ∧
    (∀ k, usesData (.final 0) k = true → (Pend.empty.operand k).written = true) ∧
    (∀ k, usesData (.final 11) k = true → ((latched (.final 11) (started 1 2 3)).pend.operand k).written = true) := by
  decide

/-- A state of the invariant with a FINAL pending, and one just after INIT. -/
theorem test_inv_started : (started 0 0 0).Inv :=
  ⟨by decide, by decide, by decide, by decide, by decide⟩

theorem test_inv_pending : (latched (.final 11) (started 1 2 3)).Inv :=
  ⟨by decide, fun _ => ⟨.final 11, rfl, by decide, by decide⟩, by decide, by decide, by decide⟩

theorem test_witness_PerformMarksUndefinedUse :
    (latched (.final 11) (started 1 2 3)).Inv ∧ (latched (.final 11) (started 1 2 3)).busy = true ∧
    (latched (.final 11) (started 1 2 3)).pend.cmd = some (.final 11) ∧ Instr.final 11 ≠ .init :=
  ⟨test_inv_pending, rfl, rfl, by decide⟩

/-- FINAL 5 and operand words that differ in every ignored lane. -/
theorem test_witness_FinalIgnoresUnusedLanes :
    (0x04030201#32 &&& tailMask 0 (5#4).toNat) = (0x04030201#32 &&& tailMask 0 (5#4).toNat) ∧
    (0xAAAAAA05#32 &&& tailMask 1 (5#4).toNat) = (0x00000005#32 &&& tailMask 1 (5#4).toNat) ∧
    (0xAAAAAAAA#32 &&& tailMask 2 (5#4).toNat) = (0#32 &&& tailMask 2 (5#4).toNat) ∧
    (∃ t, exec (.final 5) (latched (.final 5) (started 0x04030201 0x00000005 0)) = .next t) :=
  ⟨by decide, by decide, by decide, ⟨_, rfl⟩⟩

theorem test_witness_InitAbandonsTheEarlierHash :
    (latched .init (started 7 0 0)).pend.d0 = (latched .init (block .done 1 2 3 4 7 8 9)).pend.d0 ∧
    (latched .init (started 7 0 0)).pend.d0.written = true ∧ (∃ t, exec .init (latched .init (started 7 0 0)) = .next t) ∧
    (∃ t, exec .init (latched .init (block .done 1 2 3 4 7 8 9)) = .next t) :=
  ⟨by decide, by decide, ⟨_, rfl⟩, ⟨_, rfl⟩⟩

/-- A recorded error with INIT while busy, and with an illegal word; and an error raised while an INIT is pending. -/
theorem test_witness_InitClearsErrorAtIssue :
    (raiseError .sequence State.reset).err = true ∧ (raiseError .sequence State.reset).busy = false ∧
    decode 0x00000101#32 ≠ .ok .init ∧ (latched .init (raiseError .sequence State.reset)).busy = true ∧
    (∃ t, exec .init (raiseError .badAccess (issueCmd 0x00000001#32 State.reset)) = .next t) :=
  ⟨by decide, by decide, by decide, by decide, ⟨_, rfl⟩⟩

theorem test_witness_OperandsAreLatchedAtIssue :
    State.reset.busy = false ∧ decode 1#32 = .ok .init ∧ (started 0 0 0).busy = false ∧
    decode 0x00000B03#32 = .ok (.final 11) ∧ (started 0 0 0).phase = .active ∧
    (∃ t, exec .block (latched .block (started 1 2 3)) = .next t) :=
  ⟨by decide, by decide, by decide, by decide, by decide, ⟨_, rfl⟩⟩

theorem test_witness_DataWriteCommutesWithPerform :
    let s := withInput (.write (0 + (4 + 4 * 2)) 9 32) (latched .block (started 1 2 3))
    s.busy = true ∧ s.pend.cmd = some .block ∧ s.inputs = .write (s.base + (4 + 4 * (2 : Fin 3).val)) 9 32 :: [] := by
  decide

/-- The offsets at the edges of the arms: no offset falls under two arms with different outcomes. -/
theorem test_witness_WriteDispatch :
    (0x03#6).toNat % 4 ≠ 0 ∧ (0x00#6).toNat = 0 ∧ (0x04#6).toNat = 4 ∧ (0x0C#6).toNat = 0x0C ∧
    (0x10#6).toNat % 4 = 0 ∧ 0x10 ≤ (0x10#6).toNat ∧ (0x3C#6).toNat % 4 = 0 ∧ 0x10 ≤ (0x3C#6).toNat ∧
    (0x3F#6).toNat % 4 ≠ 0 ∧ ¬ 0x10 ≤ (0x0C#6).toNat := by decide

/-- The offsets of the read arms, the last register and the first and last reserved one, and a defined read. -/
theorem test_witness_ReadDispatch :
    (0x01#6).toNat % 4 ≠ 0 ∧ (0x14#6).toNat = 0x14 ∧ (0x24#6).toNat = 0x24 ∧ ¬ 0x28 ≤ (0x24#6).toNat ∧
    0x28 ≤ (0x28#6).toNat ∧ 0x28 ≤ (0x3F#6).toNat ∧ windowOffset 64 (64 + 0x18) = some 0x18#6 ∧
    readOffset 0x18#6 32 { started 0 0 0 with base := 64 } = some 0#32 := by decide

theorem test_witness_DataRegistersReadBack :
    (0x04#6).toNat = 4 + 4 * (0 : Fin 3).val ∧ (0x0C#6).toNat = 4 + 4 * (2 : Fin 3).val := by decide

/-- The first and the last address of a window, and the two next to it outside. -/
theorem test_witness_AccessesOutsideTheWindow :
    windowOffset 64 64 = some 0x00#6 ∧ windowOffset 64 127 = some 0x3F#6 ∧ windowOffset 64 63 = none ∧
    windowOffset 64 128 = none ∧ 63 < ({ State.reset with base := 64 } : State).base ∧
    ({ State.reset with base := 64 } : State).base + 64 ≤ 128 := by decide

theorem test_witness_RaiseErrorKeepsTheFirst :
    State.reset.err = false ∧ (raiseError .busy State.reset).err = true ∧
    (∃ t, exec (.final 0) (latched (.final 0) (started 0 0 0)) = .next t) := ⟨by decide, by decide, ⟨_, rfl⟩⟩

theorem test_witness_BadAccessExactlyWhen :
    16 ≠ 32 ∧ (0x05#6).toNat % 4 ≠ 0 ∧ 0x10 ≤ (0x10#6).toNat ∧ (0x0C#6).toNat % 4 = 0 ∧ (0x0C#6).toNat < 0x10 ∧
    State.reset.errCode ≠ .badAccess := by decide

/-- A write to which two causes apply: an illegal word while busy. -/
theorem test_witness_ErrorPriorityOrder :
    (latched .init State.reset).err = false ∧
    (writeOffset 0x00#6 0xFFFFFFFF 32 (latched .init State.reset)).errCode = .busy := by decide

/-- A recorded error cleared by the reset input and by an INIT, and one that stays. -/
theorem test_witness_ErrorClearedOnlyByInitOrReset :
    (raiseError .busy State.reset).err = true ∧
    (∃ t, step (withInput .reset (raiseError .busy State.reset)) = .next t ∧ t.err = false) ∧
    (∃ t, step (withInput (.write 0 1 32) (raiseError .busy State.reset)) = .next t ∧ t.err = false) ∧
    (∃ t, step (withInput (.write 0x10 1 32) (raiseError .busy State.reset)) = .next t ∧ t.err = true) ∧
    (withInput (.write 0 1 32) State.reset).busy = false :=
  ⟨by decide, ⟨_, rfl, rfl⟩, ⟨_, rfl, rfl⟩, ⟨_, rfl, rfl⟩, rfl⟩

/-- A set mark that stays, and the three ways to set it. -/
theorem test_witness_FaultMarkIsSticky :
    (∃ t, step (withInput .reset { State.reset with mark := true }) = .next t ∧ t.mark = true) ∧
    (latched .init State.reset).performUndefined .init = true ∧
    (∃ t, exec .init (latched .init State.reset) = .next t) ∧
    (∃ t, step (latched .init State.reset) = .next t ∧ t.mark = true) ∧
    (∃ t, step (withInput (.read 0x14 32) State.reset) = .next t ∧ t.mark = true) ∧
    (∃ t, step (withInput (.write 0 0 32) State.reset) = .next t ∧ t.mark = true) ∧ State.reset.mark = false :=
  ⟨⟨_, rfl, rfl⟩, by decide, ⟨_, rfl⟩, ⟨_, rfl, rfl⟩, ⟨_, rfl, rfl⟩, ⟨_, rfl, rfl⟩, rfl⟩

/-- A pending command with no turn chosen, and with the core's turn chosen. -/
theorem test_witness_StepRunsThePendingCommand :
    (latched .block (started 1 2 3)).busy = true ∧ (latched .block (started 1 2 3)).pend.cmd = some .block ∧
    (latched .block (started 1 2 3)).turns.head? ≠ some .host ∧ [Agent.core, Agent.host].head? ≠ some .host := by decide

theorem test_witness_StepRunsTheNextInput :
    (withInput .poll State.reset).busy = false ∧ (withInput .poll State.reset).inputs = .poll :: [] ∧
    (let s := { withInput .poll (latched .init State.reset) with turns := [.host, .core] }
     s.busy = true ∧ s.turns = .host :: [.core] ∧ s.inputs = .poll :: []) ∧
    State.reset.busy = false ∧ State.reset.inputs = [] := by decide

theorem test_witness_PlacedWordRunsNext :
    0xB03 < 2 ^ 32 ∧ decode (BitVec.ofNat 32 0xB03) = .ok (.final 11) ∧ 3 < 2 ^ 32 ∧
    decode (BitVec.ofNat 32 3) = .ok (.final 0) := by decide

/-- A perform that changes the accumulators, and the reset input. -/
theorem test_witness_AccumulatorsChange :
    (∃ t, step (latched .block (started 1 2 3)) = .next t ∧ t.a ≠ (started 1 2 3).a) ∧
    (∃ t, step (withInput .reset (started 1 2 3)) = .next t ∧ t.a ≠ (started 1 2 3).a) :=
  ⟨⟨_, rfl, by decide⟩, ⟨_, rfl, by decide⟩⟩

theorem test_witness_PhaseTransitions :
    (∃ t, step (latched .init State.reset) = .next t ∧ t.phase ≠ State.reset.phase) ∧
    (∃ t, step (latched (.final 0) (started 0 0 0)) = .next t ∧ t.phase ≠ (started 0 0 0).phase) ∧
    (∃ t, step (withInput .reset (started 0 0 0)) = .next t ∧ t.phase = .idle) ∧ (started 0 0 0).phase ≠ .idle :=
  ⟨⟨_, rfl, by decide⟩, ⟨_, rfl, by decide⟩, ⟨_, rfl, rfl⟩, by decide⟩

/-- BUSY set by an issue, lifted by the perform, lifted by the reset input, and kept by an access while pending. -/
theorem test_witness_BusySetByIssue :
    (∃ t, step (withInput (.write 0 1 32) State.reset) = .next t ∧ t.busy = true) ∧ State.reset.busy = false ∧
    (∃ t, step (latched .init State.reset) = .next t ∧ t.busy = false) ∧
    (∃ t, step { withInput .reset (latched .init State.reset) with turns := [.host] } = .next t ∧ t.busy = false) ∧
    (∃ t, step { withInput .poll (latched .init State.reset) with turns := [.host] } = .next t ∧ t.busy = true) ∧
    (latched .init State.reset).busy = true :=
  ⟨⟨_, rfl, rfl⟩, rfl, ⟨_, rfl, rfl⟩, ⟨_, rfl, rfl⟩, ⟨_, rfl, rfl⟩, rfl⟩

theorem test_witness_DataChangesOnlyByHostWrites :
    (∃ t, step (withInput (.write 0x0C 9 32) (started 1 2 3)) = .next t ∧ t.data 2 ≠ (started 1 2 3).data 2) ∧
    (∃ t, step (withInput .reset (started 1 2 3)) = .next t ∧ t.data 0 ≠ (started 1 2 3).data 0) :=
  ⟨⟨_, rfl, by decide⟩, ⟨_, rfl, by decide⟩⟩

theorem test_witness_StepConsumesInOrder :
    (∃ t, step { latched .init State.reset with turns := [.core] } = .next t) ∧
    ({ latched .init State.reset with turns := [.core] } : State).nextAgent = .core := ⟨⟨_, rfl⟩, rfl⟩

/-- A POLL of a block that is not busy, and one while a command is pending. -/
theorem test_witness_PollWaitsForBusyClear :
    (withInput .poll State.reset).inputs = .poll :: [] ∧ (withInput .poll State.reset).nextAgent = .host ∧
    (let s := { withInput .poll (latched .init State.reset) with turns := [.host] }
     s.inputs = .poll :: [] ∧ s.nextAgent = .host ∧ s.status.getLsbD 0 = true) := by decide

theorem test_witness_StepKeepsInvariant :
    (latched (.final 11) (started 1 2 3)).Inv ∧ (∃ t, step (latched (.final 11) (started 1 2 3)) = .next t) ∧
    (started 0 0 0).Inv ∧ (∃ t, step (started 0 0 0) = .next t) :=
  ⟨test_inv_pending, ⟨_, rfl⟩, test_inv_started, ⟨_, rfl⟩⟩

theorem test_witness_MachineNeverStops : (latched (.final 11) (started 1 2 3)).Inv := test_inv_pending

/-- A pending FINAL with a POLL to come and the host's turn first: no reset is among the inputs. -/
theorem test_witness_PendingCommandIsPerformed :
    let s := { withInput .poll (latched (.final 11) (started 1 2 3)) with turns := [.host] }
    s.Inv ∧ s.busy = true ∧ Input.reset ∉ s.inputs :=
  ⟨⟨by decide, fun _ => ⟨.final 11, rfl, by decide, by decide⟩, by decide, by decide, by decide⟩, rfl, by decide⟩

/-- Two states that differ in the bits of an unwritten register, idle, and with an INIT pending that uses one. -/
theorem test_witness_UnwrittenBitsNeverMatter :
    ({ State.reset with a := ⟨5, false⟩ } : State).erase = State.reset.erase ∧
    ({ State.reset with a := ⟨5, false⟩ } : State) ≠ State.reset ∧
    (∃ t, step ({ State.reset with a := ⟨5, false⟩ } : State) = .next t) ∧
    (latched .init { State.reset with data0 := ⟨5, false⟩ }).erase = (latched .init State.reset).erase ∧
    (∃ t, step (latched .init { State.reset with data0 := ⟨5, false⟩ }) = .next t) :=
  ⟨by decide, by decide, ⟨_, rfl⟩, by decide, ⟨_, rfl⟩⟩

theorem test_witness_ResetDiscards :
    let s := { withInput .reset (latched .block (started 1 2 3)) with turns := [.host] }
    s.nextAgent = .host ∧ s.inputs = .reset :: [] ∧ (∃ t, step s = .next t) := ⟨rfl, rfl, ⟨_, rfl⟩⟩

/-- A tail of 11 bytes at the end of a message of 11, in words with an ignored lane that holds anything. -/
theorem test_witness_TailMerge :
    let msg : List Byte := [1, 2, 3, 4, 5, 6, 7, 8, 9, 10, 11]
    let T : Fin 3 → Word := fun k => [0x04030201#32, 0x08070605#32, 0xAA0B0A09#32].getD k.val 0
    0 + 11 ≤ msg.length ∧ ∀ k : Fin 3, ∀ j : Fin 4, 4 * k.val + j.val < 11 →
      some (lane (T k) j.val) = msg[0 + (4 * k.val + j.val)]? := by decide

theorem test_witness_IntermediateState :
    let msg : List Byte := [1, 2, 3, 4, 5, 6, 7, 8, 9, 10, 11, 12]
    let s : State := { State.reset with inputs := asmInit 0 7 ++ asmBlocks 0 msg 1 ++ [.poll] }
    s.busy = false ∧ 12 * 1 ≤ msg.length ∧ s.inputs = asmInit s.base 7 ++ asmBlocks s.base msg 1 ++ [.poll] :=
  ⟨rfl, by decide, rfl⟩

/-- A message of one block and one tail byte, with junk in the ignored lanes, after another hash. -/
theorem test_witness_CanonicalSequence :
    let msg : List Byte := [1, 2, 3, 4, 5, 6, 7, 8, 9, 10, 11, 12, 13]
    let T : Fin 3 → Word := fun k => [0xAAAAAA0D#32, 0xAAAAAAAA#32, 0xAAAAAAAA#32].getD k.val 0
    let s : State := { block .done 1 2 3 4 5 6 7 with inputs := canonicalSequence 0 msg 7 (T 0) (T 1) (T 2) }
    s.busy = false ∧ s.inputs = canonicalSequence s.base msg 7 (T 0) (T 1) (T 2) ++ [] ∧
    ∀ k : Fin 3, ∀ j : Fin 4, 4 * k.val + j.val < msg.length % 12 →
      some (lane (T k) j.val) = msg[12 * (msg.length / 12) + (4 * k.val + j.val)]? :=
  ⟨rfl, rfl, by decide⟩

theorem test_witness_HashPseudoInstruction :
    let s : State := { State.reset with inputs := asmHash 0 [0x61] 3 }
    let s' : State := { State.reset with inputs := asmHashDefault 0 [0x61] }
    s.busy = false ∧ s.inputs = asmHash s.base [0x61] 3 ++ [] ∧ s'.inputs = asmHashDefault s'.base [0x61] ++ [] :=
  ⟨rfl, rfl, rfl⟩

/-- Two blocks with windows side by side; the last byte of the first and the first byte of the second. -/
theorem test_witness_Platform :
    let p : Platform := ⟨[State.reset, { State.reset with base := 64 }]⟩
    p.wf = true ∧ (∃ q, p.stepAt 1 = .next q) ∧ p.blocks[1]? = some { State.reset with base := 64 } ∧
    windowOffset 64 64 = some 0#6 ∧ windowOffset 0 63 = some 0x3F#6 ∧ (0 : Nat) ≠ 1 :=
  ⟨by decide, ⟨_, rfl⟩, rfl, by decide, by decide, by decide⟩

end Sys2Proof.Tests
end

section
/-! PROOFS. What reset leaves in the state (R37 of 10_state.md), and the reads that are gated by PHASE and BUSY (R171 of
43_host_access.md). -/

namespace Sys2Proof.Machine

/-! ### Reads of STATUS, RESULT and the ACC registers (R171) -/

@[simp] theorem readOffset_status (s : State) : readOffset 0x10#6 32 s = some s.status := rfl

@[simp] theorem readOffset_result (s : State) :
    readOffset 0x14#6 32 s = if s.resultReady then s.c.read? else none := rfl

@[simp] theorem readOffset_accA (s : State) : readOffset 0x1C#6 32 s = if s.ready then s.a.read? else none := rfl

@[simp] theorem readOffset_accB (s : State) : readOffset 0x20#6 32 s = if s.ready then s.b.read? else none := rfl

@[simp] theorem readOffset_accC (s : State) : readOffset 0x24#6 32 s = if s.ready then s.c.read? else none := rfl

/-- Nothing of a hash can be read in IDLE (R171). -/
theorem State.ready_of_idle {s : State} (h : s.phase = .idle) : s.ready = false := by
  simp [State.ready, h]

theorem State.resultReady_of_idle {s : State} (h : s.phase = .idle) : s.resultReady = false := by
  simp [State.resultReady, h]

/-- STATUS reads 0 in IDLE when nothing is pending and no error is recorded (R30). -/
theorem State.status_eq_zero {s : State} (hbusy : s.busy = false) (hphase : s.phase = .idle)
    (herr : s.err = false) (hcode : s.errCode = .noError) : s.status = 0#32 := by
  unfold State.status
  rw [hbusy, hphase, herr, hcode]
  decide

/-! ### The state after reset (R37) -/

/-- The reset input leaves the state after reset as it is, so what holds of every state the input leaves holds of
`State.reset`. -/
theorem applyReset_reset : applyReset State.reset = State.reset := rfl

@[simp] theorem applyReset_data (s : State) : ∀ k : Fin 3, (applyReset s).data k = Reg.unwritten
  | 0 | 1 | 2 => rfl

@[simp] theorem Pend.empty_cmd : Pend.empty.cmd = none := rfl

@[simp] theorem applyReset_status (s : State) : (applyReset s).status = 0#32 :=
  State.status_eq_zero (applyReset_busy s) (applyReset_phase s) (applyReset_err s) (applyReset_errCode s)

@[simp] theorem applyReset_ready (s : State) : (applyReset s).ready = false :=
  State.ready_of_idle (applyReset_phase s)

@[simp] theorem applyReset_resultReady (s : State) : (applyReset s).resultReady = false :=
  State.resultReady_of_idle (applyReset_phase s)

/-- Settles O46: `State.reset` is itself a state the reset input leaves, and of those each field and each read is known
by its own lemma. -/
theorem resetValues : Obligations.ResetValues := by
  intro s hs
  obtain ⟨u, rfl⟩ : ∃ u, s = applyReset u := by
    rcases hs with rfl | hu
    · exact ⟨State.reset, applyReset_reset.symm⟩
    · exact hu
  simp

end Sys2Proof.Machine
end

section
/-! PROOFS. Operand words: the lanes of a word and the message bytes in them (R10, R54 of 20_memory.md, R76), and the
latch that keeps a command's operands from its issue to its perform (R62, R141). -/

namespace Sys2Proof.Machine

/-! ### The lanes of a word -/

/-- The word with byte `b j` in lane `j`. -/
def ofLanes (b : Nat → Byte) : Word :=
  zextByte (b 0) <<< (8 * 0) ||| zextByte (b 1) <<< (8 * 1) |||
    zextByte (b 2) <<< (8 * 2) ||| zextByte (b 3) <<< (8 * 3)

@[simp] theorem lane_or (v w : Word) (j : Nat) : lane (v ||| w) j = lane v j ||| lane w j :=
  BitVec.extractLsb'_or

theorem lane_getLsbD (v : Word) {j i : Nat} (hi : i < 8) : (lane v j).getLsbD i = v.getLsbD (8 * j + i) := by
  simp [lane, hi]

/-- A byte shifted into lane `i` is that lane, and leaves 0 in the others. -/
theorem lane_zextByte_shift (b : Byte) {i j : Nat} (hj : j < 4) :
    lane (zextByte b <<< (8 * i)) j = if j = i then b else 0#8 := by
  apply BitVec.eq_of_getLsbD_eq
  intro n hn
  rw [lane_getLsbD _ hn, BitVec.getLsbD_shiftLeft, BitVec.getLsbD_setWidth]
  obtain hlt | rfl | hgt := Nat.lt_trichotomy j i
  · simp [hlt.ne, show 8 * j + n < 8 * i by omega]
  · simp [show 8 * j + n < 32 by omega, show n < 32 by omega]
  · simp [hgt.ne', BitVec.getLsbD_of_ge b (8 * j + n - 8 * i) (by omega)]

theorem lane_ofLanes (b : Nat → Byte) {j : Nat} (hj : j < 4) : lane (ofLanes b) j = b j := by
  simp only [ofLanes, lane_or, lane_zextByte_shift _ hj]
  interval_cases j <;> simp

/-- A word is determined by its four lanes. -/
theorem eq_of_lane_eq {v w : Word} (h : ∀ j < 4, lane v j = lane w j) : v = w := by
  apply BitVec.eq_of_getLsbD_eq
  intro n hn
  have hbit := congrArg (·.getLsbD (n % 8)) (h (n / 8) (by omega))
  simpa only [lane_getLsbD _ (Nat.mod_lt n (by decide)), Nat.div_add_mod] using hbit

theorem ofLanes_lane (v : Word) : ofLanes (lane v) = v :=
  eq_of_lane_eq fun _ hj => lane_ofLanes _ hj

/-! ### The message bytes in an operand word -/

theorem le32_eq_ofLanes (msg : List Byte) (p : Nat) : le32 msg p = ofLanes fun j => msg.getD (p + j) 0#8 := by
  simp [le32, byteAt, ofLanes]

theorem tailLane_eq_shift (msg : List Byte) (pos rem k j : Nat) :
    tailLane msg pos rem k j =
      zextByte (if 4 * k + j < rem then msg.getD (pos + (4 * k + j)) 0#8 else 0#8) <<< (8 * j) := by
  unfold tailLane byteAt
  split
  · rfl
  · simp

theorem tailWord_eq_ofLanes (msg : List Byte) (pos rem k : Nat) :
    tailWord msg pos rem k =
      ofLanes fun j => if 4 * k + j < rem then msg.getD (pos + (4 * k + j)) 0#8 else 0#8 := by
  simp only [tailWord, ofLanes, tailLane_eq_shift]

theorem lane_le32 {msg : List Byte} {p j : Nat} (hj : j < 4) (hlen : p + j < msg.length) :
    some (lane (le32 msg p) j) = msg[p + j]? := by
  rw [le32_eq_ofLanes, lane_ofLanes _ hj]
  simp [hlen]

/-- The lanes of the tail word `T_k`: the bytes the tail has, and 0 above them (R76, R82). -/
theorem lane_tailWord (msg : List Byte) (pos rem k : Nat) {j : Nat} (hj : j < 4) :
    lane (tailWord msg pos rem k) j = if 4 * k + j < rem then msg.getD (pos + (4 * k + j)) 0#8 else 0#8 := by
  rw [tailWord_eq_ofLanes, lane_ofLanes _ hj]

theorem le32_lanes (v : Word) : le32 [lane v 0, lane v 1, lane v 2, lane v 3] 0 = v :=
  (le32_eq_ofLanes _ _).trans (ofLanes_lane v)

/-- Settles O8: an operand word and a tail word are both `ofLanes` of their bytes, and `lane` is its inverse. -/
theorem operandWordsAreLittleEndian : Obligations.OperandWordsAreLittleEndian := by
  refine ⟨fun msg pos k j hj hlen => lane_le32 hj hlen, fun msg pos rem k j hj hlen => ⟨fun hin => ?_, fun hout => ?_⟩,
    le32_lanes⟩
  · rw [lane_tailWord _ _ _ _ hj, if_pos hin, Nat.add_assoc]
    simp [show pos + (4 * k + j) < msg.length by omega]
  · rw [lane_tailWord _ _ _ _ hj, if_neg (by omega)]

/-! ### The latch of an accepted command -/

/-- R141's issue condition, as the rule words it: INIT in any PHASE, the others in ACTIVE. -/
theorem State.phaseAllows_iff (s : State) (i : Instr) : s.phaseAllows i = true ↔ i = .init ∨ s.phase = .active := by
  cases i <;> simp [State.phaseAllows, needsActive]

theorem issueCmd_of_accepted {s : State} {w : Word} {i : Instr} (hbusy : s.busy = false) (hdec : decode w = .ok i)
    (hphase : i = .init ∨ s.phase = .active) : issueCmd w s = acceptCmd i s := by
  simp [issueCmd, hbusy, hdec, (s.phaseAllows_iff i).2 hphase]

theorem acceptCmd_operand (i : Instr) (s : State) (k : Fin 3) : (acceptCmd i s).pend.operand k = s.data k := by
  rw [acceptCmd_pend]
  fin_cases k <;> rfl

/-- A perform reads its operands from PEND and never from DATA, so a DATA write passes through it. -/
theorem exec_setData {i : Instr} {s t : State} (k : Fin 3) (v : Word) (h : exec i s = .next t) :
    exec i (s.setData k v) = .next (t.setData k v) := by
  cases i with
  | init | block | final _ =>
    cases h
    fin_cases k <;> rfl

/-- Settles O20: an accepted issue is `acceptCmd`, which latches DATA in PEND, and a perform commutes with a DATA
write. -/
theorem operandsAreLatchedAtIssue : Obligations.OperandsAreLatchedAtIssue := by
  refine ⟨fun s w i hbusy hdec hphase => ?_, fun s k v => s.setData_pend k v, fun i s t k v h => exec_setData k v h,
    fun s k v w i hbusy hdec hphase => ?_⟩
  · rw [issueCmd_of_accepted hbusy hdec hphase, acceptCmd_pend]
    rfl
  · have hissue : issueCmd w (s.setData k v) = acceptCmd i (s.setData k v) :=
      issueCmd_of_accepted (by simpa using hbusy) hdec (by simpa using hphase)
    rw [hissue, acceptCmd_operand, State.setData_data, if_pos rfl]

end Sys2Proof.Machine
end

section
/-! PROOFS. The legal command words: the decoder accepts exactly the encodings of the well-formed commands (R70 to R75 of
30_encoding.md). -/

namespace Sys2Proof

/-! ### The decoder is the inverse of the encoder on the well-formed commands -/

theorem decode_encode {i : Instr} (h : i.wf = true) : decode (encode i) = .ok i := by
  cases i with
  | init | block => decide
  | final rem => revert rem; decide

/-- The four bits of REM, put back where they stand in the word. -/
theorem remField_shift (w : Word) : (remField w).setWidth 32 <<< 8 = w &&& 0x00000F00#32 := by
  apply BitVec.eq_of_getLsbD_eq
  intro n hn
  interval_cases n <;> simp [remField]

/-- FINAL's row of R74 by match and mask: the mask leaves out REM alone, so the word is the row's word for its REM. -/
theorem eq_encode_final_iff (w : Word) (rem : BitVec 4) :
    w = encode (.final rem) ↔ w &&& 0xFFFFF0FF#32 = 0x00000003#32 ∧ remField w = rem := by
  constructor
  · rintro rfl
    revert rem
    decide
  · rintro ⟨hmatch, rfl⟩
    calc w = w &&& (0xFFFFF0FF#32 ||| 0x00000F00#32) := BitVec.and_allOnes.symm
      _ = 0x00000003#32 ||| (remField w).setWidth 32 <<< 8 := by
        rw [BitVec.and_or_distrib_left, hmatch, remField_shift]

theorem encode_of_decode {w : Word} {i : Instr} (h : decode w = .ok i) : w = encode i := by
  obtain ⟨rfl, hw⟩ | ⟨rfl, hw⟩ | ⟨rfl, hmatch, -⟩ := decode_cases w i h
  · exact hw
  · exact hw
  · exact (eq_encode_final_iff w _).2 ⟨hmatch, rfl⟩

theorem decode_eq_ok_iff (w : Word) (i : Instr) : decode w = .ok i ↔ w = encode i ∧ i.wf = true := by
  constructor
  · exact fun h => ⟨encode_of_decode h, decode_wf w i h⟩
  · rintro ⟨rfl, hwf⟩
    exact decode_encode hwf

theorem wf_final_iff (rem : BitVec 4) : (Instr.final rem).wf = true ↔ rem.toNat ≤ 11 :=
  decide_eq_true_iff

/-! ### The 14 legal words (R74) -/

/-- The commands that have an encoding, in the order of R74's list of words. -/
def wfCommands : List Instr :=
  .init :: .block :: (List.range 12).map fun n => .final (BitVec.ofNat 4 n)

theorem mem_wfCommands_iff (i : Instr) : i ∈ wfCommands ↔ i.wf = true := by
  cases i with
  | init | block => decide
  | final rem => revert rem; decide

theorem exists_decode_iff (w : Word) : (∃ i, decode w = .ok i) ↔ w ∈ wfCommands.map encode := by
  simp only [decode_eq_ok_iff, List.mem_map, mem_wfCommands_iff]
  exact exists_congr fun i => by rw [and_comm, eq_comm (a := w)]

/-- Settles O2: a word decodes to a command exactly when it is the encoding of that well-formed command, and there are 14
of those. -/
theorem legalWordsAreExactlyFourteen : Obligations.LegalWordsAreExactlyFourteen := by
  refine ⟨fun w => ?_, fun w => ?_, fun w rem => ?_, fun w rem => ?_, exists_decode_iff⟩
  · rw [decode_eq_ok_iff, show w &&& 0xFFFFFFFF#32 = w from BitVec.and_allOnes]
    exact and_iff_left rfl
  · rw [decode_eq_ok_iff, show w &&& 0xFFFFFFFF#32 = w from BitVec.and_allOnes]
    exact and_iff_left rfl
  · rw [decode_eq_ok_iff, eq_encode_final_iff, wf_final_iff, and_assoc]
    rfl
  · rw [decode_eq_ok_iff, wf_final_iff]
    rfl

/-! ### The fields of a legal word (R71, R72, R73) -/

/-- The value of OP that names a command (R71). -/
def Instr.op : Instr → BitVec 4
  | .init => 1
  | .block => 2
  | .final _ => 3

/-- The value REM must have with a command (R72). -/
def Instr.rem : Instr → BitVec 4
  | .init => 0
  | .block => 0
  | .final rem => rem

/-- OP and REM of a legal word are its command's, and its reserved bits are 0. -/
theorem fields_of_decode {w : Word} {i : Instr} (h : decode w = .ok i) :
    w.extractLsb' 0 4 = i.op ∧ w.extractLsb' 8 4 = i.rem ∧ w.extractLsb' 4 4 = 0#4 ∧ w.extractLsb' 12 20 = 0#20 := by
  obtain rfl := encode_of_decode h
  clear h
  cases i with
  | init | block => decide
  | final rem => revert rem; decide

/-- A word is illegal when no command's fields are those of the word. -/
theorem illegal_of_forall_ne {w : Word} (h : ∀ i, decode w ≠ .ok i) : ∃ e, decode w = .error e := by
  cases hdec : decode w with
  | error e => exact ⟨e, rfl⟩
  | ok i => exact absurd hdec (h i)

/-- Settles O3: the fields of a legal word are those of a well-formed command, and no such command has the fields of a
reserved encoding. -/
theorem fieldsAndReservedEncodings : Obligations.FieldsAndReservedEncodings := by
  refine ⟨fun w h => ?_, fun w h => ?_, fun w rem h => ?_, fun w hres => illegal_of_forall_ne fun i h => ?_,
    fun w hop => illegal_of_forall_ne fun i h => ?_, fun w hop hrem => illegal_of_forall_ne fun i h => ?_,
    fun w hop hrem => illegal_of_forall_ne fun i h => ?_⟩ <;>
    obtain ⟨hOp, hRem, hlow, hhigh⟩ := fields_of_decode h
  · exact ⟨hOp, hRem⟩
  · exact ⟨hOp, hRem⟩
  · exact ⟨hOp, hRem, (wf_final_iff rem).1 (decode_wf w _ h)⟩
  · exact hres.elim (· hlow) (· hhigh)
  · rw [hOp] at hop
    cases i <;> simp [Instr.op] at hop
  · rw [hOp] at hop
    rw [hRem] at hrem
    cases i <;> simp [Instr.op, Instr.rem] at hop hrem
  · rw [hOp] at hop
    rw [hRem] at hrem
    cases i with
    | init | block => simp [Instr.op] at hop
    | final rem =>
      have hwf : (Instr.final rem).rem.toNat ≤ 11 := (wf_final_iff rem).1 (decode_wf w _ h)
      exact absurd (hrem.trans hwf) (by decide)

end Sys2Proof
end

section
/-! PROOFS. The operands a command uses (R77, R78 of 30_encoding.md): the lanes the tail mask selects, what an operand
adds to the accumulators, and the fault mark of an `undefined` use. -/

namespace Sys2Proof.Machine

/-! ### The tail mask (R78) -/

theorem laneMask_eq_shift (k rem j : Nat) :
    laneMask k rem j = zextByte (if 4 * k + j < rem then BitVec.allOnes 8 else 0#8) <<< (8 * j) := by
  unfold laneMask
  split
  · rfl
  · simp

theorem tailMask_eq_ofLanes (k rem : Nat) :
    tailMask k rem = ofLanes fun j => if 4 * k + j < rem then BitVec.allOnes 8 else 0#8 := by
  simp only [tailMask, ofLanes, laneMask_eq_shift]

theorem tailMask_getLsbD (k rem : Nat) {j b : Nat} (hj : j < 4) (hb : b < 8) :
    (tailMask k rem).getLsbD (8 * j + b) = decide (4 * k + j < rem) := by
  rw [← lane_getLsbD _ hb, tailMask_eq_ofLanes, lane_ofLanes _ hj]
  split
  · rw [BitVec.getLsbD_allOnes]
    simp [*]
  · simp [*]

/-- A tail word of which FINAL uses no lane is masked to 0. -/
theorem tailMask_eq_zero {k rem : Nat} (h : rem ≤ 4 * k) : tailMask k rem = 0#32 := by
  have hlane : ∀ j, laneMask k rem j = 0#32 := fun j => if_neg (by omega)
  simp [tailMask, hlane]

/-- Settles O9: `TM(k, rem)` is the word whose lane `j` is all ones when `4k + j < rem` and 0 otherwise. -/
theorem tailMaskLanes : Obligations.TailMaskLanes :=
  ⟨fun k rem _ _ hj hb => tailMask_getLsbD k rem hj hb, by decide⟩

/-! ### The accumulators a perform leaves -/

/-- `Mix` undone line by line (R134). -/
@[simp] theorem unmix_mix (m : Acc) : unmix (mix m) = m := by
  simp [unmix, mix, mixLine1, mixLine2, mixLine3, mixLine4, mixLine5, mixLine6, mixLine7, mixLine8, mixLine9]

theorem mix_injective : Function.Injective mix :=
  Function.LeftInverse.injective unmix_mix

/-- `A`, `B`, `C` after the perform of a command (R143, R146, R148). -/
def performAcc (s : State) : Instr → Acc
  | .init => ⟨Config.golden, Config.golden, s.operand0⟩
  | .block => blockAcc s.acc s.operand0 s.operand1 s.operand2
  | .final rem => finalAcc s.acc (s.length + rem.setWidth 32) rem.toNat s.operand0 s.operand1 s.operand2

/-- The three accumulators as written registers. -/
def Acc.regs (m : Acc) : Reg × Reg × Reg := (Reg.of m.a, Reg.of m.b, Reg.of m.c)

theorem Acc.regs_injective : Function.Injective Acc.regs := by
  rintro ⟨a, b, c⟩ ⟨a', b', c'⟩ h
  simpa [Acc.regs] using h

theorem exec_acc {i : Instr} {s t : State} (h : exec i s = .next t) : (t.a, t.b, t.c) = (performAcc s i).regs := by
  cases i with
  | init | block | final _ =>
    cases h
    rfl

/-! ### What an operand adds to the accumulators -/

/-- The place of the free value that an unwritten operand `k` stands for. -/
def operandSource : Fin 3 → Config.Source
  | 0 => .operand0
  | 1 => .operand1
  | 2 => .operand2

/-- The word a perform computes with for the operand `k` of PEND. -/
def State.operandValue (s : State) (k : Fin 3) : Word := s.valueOf (operandSource k) (s.pend.operand k)

/-- What the value `v` of operand `k` adds to the accumulator it goes to: INIT and BLOCK add the word (or nothing),
FINAL the lanes under the tail mask, which for the third operand start at lane 1 of `C` (R143, R146, R148). -/
def operandAddend : Instr → Fin 3 → Word → Word
  | .init, k, v => if k = 0 then v else 0#32
  | .block, _, v => v
  | .final rem, k, v => (v &&& tailMask k rem.toNat) <<< (if k = 2 then 8 else 0)

/-- In two states that differ in PEND alone, an operand that is the same has the same value, written or not. -/
theorem operandValue_congr {s s' : State} (hs : s = { s' with pend := s.pend }) {k : Fin 3}
    (h : s.pend.operand k = s'.pend.operand k) : s.operandValue k = s'.operandValue k := by
  unfold State.operandValue
  rw [h, hs]
  rfl

/-- Two performs that differ in PEND alone leave the same accumulators exactly when every operand adds the same, since
`Mix` is injective. -/
theorem performAcc_eq_iff (i : Instr) {s s' : State} (hs : s = { s' with pend := s.pend }) :
    performAcc s i = performAcc s' i ↔
      ∀ k, operandAddend i k (s.operandValue k) = operandAddend i k (s'.operandValue k) := by
  have hval : ∀ u : State, u.operandValue 0 = u.operand0 ∧ u.operandValue 1 = u.operand1 ∧
      u.operandValue 2 = u.operand2 := fun _ => ⟨rfl, rfl, rfl⟩
  have hacc : s.acc = s'.acc := by rw [hs]; rfl
  have hlen : s.length = s'.length := by rw [hs]; rfl
  cases i with
  | init => simp [performAcc, operandAddend, Fin.forall_fin_succ, hval]
  | block => simp [performAcc, blockAcc, mix_injective.eq_iff, operandAddend, Fin.forall_fin_succ, hval, hacc]
  | final rem =>
    simp [performAcc, finalAcc, mix_injective.eq_iff, operandAddend, Fin.forall_fin_succ, hval, hacc, hlen]

/-! ### The operands that matter (R77) -/

theorem usesData_final_iff (rem : BitVec 4) (k : Fin 3) : usesData (.final rem) k = true ↔ 4 * k.val + 1 ≤ rem.toNat :=
  decide_eq_true_iff

theorem operandAddend_of_unused {i : Instr} {k : Fin 3} (h : ¬ usesData i k = true) (v : Word) :
    operandAddend i k v = 0#32 := by
  cases i with
  | init => exact if_neg (by simpa [usesData] using h)
  | block => exact absurd rfl h
  | final rem =>
    rw [usesData_final_iff] at h
    simp [operandAddend, tailMask_eq_zero (show rem.toNat ≤ 4 * k.val by omega)]

/-- Lane 0 is the first that FINAL uses of a tail word. -/
theorem one_and_tailMask {k rem : Nat} (h : 4 * k + 1 ≤ rem) : 1#32 &&& tailMask k rem = 1#32 := by
  have hbit : (tailMask k rem).getLsbD 0 = true :=
    (tailMask_getLsbD k rem (j := 0) (b := 0) (by decide) (by decide)).trans (decide_eq_true h)
  apply BitVec.eq_of_getLsbD_eq
  intro n _
  cases n with
  | zero => simpa using hbit
  | succ n => simp

/-- The operand values 1 and 0 tell a used operand. -/
theorem operandAddend_of_used {i : Instr} {k : Fin 3} (h : usesData i k = true) :
    operandAddend i k 1#32 ≠ operandAddend i k 0#32 := by
  cases i with
  | init =>
    obtain rfl : k = 0 := by simpa [usesData] using h
    decide
  | block => exact show 1#32 ≠ 0#32 by decide
  | final rem =>
    rw [usesData_final_iff] at h
    simp only [operandAddend, one_and_tailMask h, BitVec.zero_and]
    clear h
    revert k
    decide

/-- A block with the command `i` pending whose registers and operands all hold 0, but for operand `k`, which holds
`v`. -/
def pendingWith (i : Instr) (k : Fin 3) (v : Word) : State :=
  { State.reset with
    a := Reg.of 0#32, b := Reg.of 0#32, c := Reg.of 0#32, len := Reg.of 0#32
    phase := .active, busy := true
    pend := ⟨some i, Reg.of (if k = 0 then v else 0#32), Reg.of (if k = 1 then v else 0#32),
      Reg.of (if k = 2 then v else 0#32)⟩ }

theorem pendingWith_operand (i : Instr) (k j : Fin 3) (v : Word) :
    (pendingWith i k v).pend.operand j = Reg.of (if k = j then v else 0#32) := by
  fin_cases j <;> rfl

theorem pendingWith_operandValue (i : Instr) (k : Fin 3) (v : Word) : (pendingWith i k v).operandValue k = v := by
  simp [State.operandValue, pendingWith_operand]

theorem exec_exists_next (i : Instr) (s : State) : ∃ t, exec i s = .next t := by
  obtain ⟨m, n, ph, h, -⟩ := exec_eq_next i s
  exact ⟨_, h⟩

/-- A used operand: the two performs with 1 and 0 in it leave different accumulators. -/
theorem exists_acc_ne_of_used {i : Instr} {k : Fin 3} (h : usesData i k = true) :
    ∃ s s' t t' : State, s.pend.cmd = s'.pend.cmd ∧ (∀ j, j ≠ k → s.pend.operand j = s'.pend.operand j) ∧
      s = { s' with pend := s.pend } ∧ exec i s = .next t ∧ exec i s' = .next t' ∧
      (t.a, t.b, t.c) ≠ (t'.a, t'.b, t'.c) := by
  obtain ⟨t, ht⟩ := exec_exists_next i (pendingWith i k 1#32)
  obtain ⟨t', ht'⟩ := exec_exists_next i (pendingWith i k 0#32)
  refine ⟨pendingWith i k 1#32, pendingWith i k 0#32, t, t', rfl, fun j hj => ?_, rfl, ht, ht', fun hacc => ?_⟩
  · rw [pendingWith_operand, pendingWith_operand, if_neg hj.symm, if_neg hj.symm]
  · rw [exec_acc ht, exec_acc ht', Acc.regs_injective.eq_iff, performAcc_eq_iff i rfl] at hacc
    have hk := hacc k
    rw [pendingWith_operandValue, pendingWith_operandValue] at hk
    exact operandAddend_of_used h hk

/-- An operand that is not used adds 0 whatever it holds, so it cannot change the accumulators. -/
theorem acc_eq_of_unused {i : Instr} {k : Fin 3} (h : ¬ usesData i k = true) {s s' t t' : State}
    (hop : ∀ j, j ≠ k → s.pend.operand j = s'.pend.operand j) (hs : s = { s' with pend := s.pend })
    (ht : exec i s = .next t) (ht' : exec i s' = .next t') : (t.a, t.b, t.c) = (t'.a, t'.b, t'.c) := by
  rw [exec_acc ht, exec_acc ht', Acc.regs_injective.eq_iff, performAcc_eq_iff i hs]
  intro j
  by_cases hj : j = k
  · rw [hj, operandAddend_of_unused h, operandAddend_of_unused h]
  · rw [operandValue_congr hs (hop j hj)]

/-! ### The mark of an `undefined` use (R151, R212) -/

theorem performUndefined_iff (i : Instr) (s : State) : s.performUndefined i = true ↔
    (∃ k, usesData i k = true ∧ (s.pend.operand k).written = false) ∨
      (needsActive i = true ∧ s.accWritten = false) := by
  simp [State.performUndefined, Fin.exists_fin_succ, or_assoc]

theorem exec_mark {i : Instr} {s t : State} (h : exec i s = .next t) : t.mark = (s.mark || s.performUndefined i) := by
  obtain ⟨-, -, -, -, -, -, -, -, -, -, -, -, hmark⟩ := exec_frame i s t h
  exact hmark

/-- Settles O10: an operand's part in the accumulators is what it adds before `Mix`, which is 0 for an unused operand and
tells 0 from 1 for a used one; the mark is that of `performUndefined`. -/
theorem usedOperandsAreThoseThatMatter : Obligations.UsedOperandsAreThoseThatMatter := by
  refine ⟨fun k => beq_iff_eq, fun _ => rfl,
    fun rem => ⟨usesData_final_iff rem 0, usesData_final_iff rem 1, usesData_final_iff rem 2⟩,
    fun i k _ => ⟨exists_acc_ne_of_used, ?_⟩, fun i s t k ht huse hundef => ?_, fun i s t ht hwritten hacc => ?_⟩
  · rintro ⟨s, s', t, t', -, hop, hs, ht, ht', hne⟩
    by_contra hunused
    exact hne (acc_eq_of_unused hunused hop hs ht ht')
  · have hused : s.performUndefined i = true := (performUndefined_iff i s).2 (.inl ⟨k, huse, hundef⟩)
    rw [exec_mark ht, hused, Bool.or_true]
  · have hnone : s.performUndefined i = false := by
      rw [← Bool.not_eq_true, performUndefined_iff]
      rintro (⟨k, huse, hundef⟩ | ⟨-, hundef⟩)
      · simp [hwritten k huse] at hundef
      · simp [hacc] at hundef
    rw [exec_mark ht, hnone, Bool.or_false]

end Sys2Proof.Machine
end

section
/-! PROOFS. The length fold and the tail merge of the reference function (R103 to R106 of 40_reference_function.md). -/

namespace Sys2Proof.Machine

/-! ### The length fold (R103, R105) -/

theorem ofNat_mod_two_pow (n : Nat) : BitVec.ofNat 32 (n % 2 ^ 32) = BitVec.ofNat 32 n :=
  BitVec.eq_of_toNat_eq (Nat.mod_mod n (2 ^ 32))

theorem foldLength_mod (n : Nat) (m : Acc) : foldLength (n % 2 ^ 32) m = foldLength n m := by
  rw [foldLength, foldLength, ofNat_mod_two_pow]

/-- Settles O50: `BitVec.ofNat 32` takes its argument modulo 2^32, and adds. -/
theorem lengthFoldWraps : Obligations.LengthFoldWraps := by
  refine fun n k m => ⟨(foldLength_mod n m).symm, ?_⟩
  rw [ofNat_mod_two_pow, BitVec.ofNat_add]

/-! ### A word as the sum of its lanes (R106) -/

@[simp] theorem lane_and (v w : Word) (j : Nat) : lane (v &&& w) j = lane v j &&& lane w j :=
  BitVec.extractLsb'_and

@[simp] theorem lane_zero (j : Nat) : lane 0#32 j = 0#8 :=
  BitVec.extractLsb'_zero

/-- Bytes shifted into different lanes have no bit in common. -/
theorem zextByte_shift_and_of_ne (b b' : Byte) {i j : Nat} (h : i ≠ j) :
    zextByte b <<< (8 * i) &&& zextByte b' <<< (8 * j) = 0#32 := by
  apply eq_of_lane_eq
  intro l hl
  rw [lane_and, lane_zextByte_shift b hl, lane_zextByte_shift b' hl, lane_zero]
  by_cases hli : l = i
  · rw [if_neg (show l ≠ j from fun hlj => h (hli.symm.trans hlj)), BitVec.and_zero]
  · rw [if_neg hli, BitVec.zero_and]

theorem or_and_eq_zero {x y z : Word} (hx : x &&& z = 0#32) (hy : y &&& z = 0#32) : (x ||| y) &&& z = 0#32 := by
  rw [BitVec.and_or_distrib_right, hx, hy, BitVec.or_zero]

/-- Distinct lanes do not carry into each other, so their sum is their union. -/
theorem ofLanes_eq_add (b : Nat → Byte) :
    ofLanes b = zextByte (b 0) <<< (8 * 0) + zextByte (b 1) <<< (8 * 1) + zextByte (b 2) <<< (8 * 2) +
      zextByte (b 3) <<< (8 * 3) := by
  have hdisj : ∀ i j, i ≠ j → zextByte (b i) <<< (8 * i) &&& zextByte (b j) <<< (8 * j) = 0#32 :=
    fun i j h => zextByte_shift_and_of_ne (b i) (b j) h
  have h1 := hdisj 0 1 (by decide)
  have h2 := or_and_eq_zero (hdisj 0 2 (by decide)) (hdisj 1 2 (by decide))
  have h3 := or_and_eq_zero (or_and_eq_zero (hdisj 0 3 (by decide)) (hdisj 1 3 (by decide))) (hdisj 2 3 (by decide))
  rw [ofLanes, BitVec.add_eq_or_of_and_eq_zero _ _ h1, BitVec.add_eq_or_of_and_eq_zero _ _ h2,
    BitVec.add_eq_or_of_and_eq_zero _ _ h3]

theorem tailWord_eq_add (msg : List Byte) (pos rem k : Nat) :
    tailWord msg pos rem k = tailLane msg pos rem k 0 + tailLane msg pos rem k 1 + tailLane msg pos rem k 2 +
      tailLane msg pos rem k 3 := by
  simp only [tailWord_eq_ofLanes, ofLanes_eq_add, tailLane_eq_shift]

/-! ### The tail words under the tail mask (R76, R78) -/

theorem lane_tailMask (k rem : Nat) {j : Nat} (hj : j < 4) :
    lane (tailMask k rem) j = if 4 * k + j < rem then BitVec.allOnes 8 else 0#8 := by
  rw [tailMask_eq_ofLanes, lane_ofLanes _ hj]

/-- A word with the tail's bytes in the lanes FINAL `rem` uses is, under the tail mask, the tail word whose other lanes
are 0. -/
theorem and_tailMask_eq_tailWord {msg : List Byte} {pos rem k : Nat} {v : Word}
    (h : ∀ j < 4, 4 * k + j < rem → some (lane v j) = msg[pos + (4 * k + j)]?) :
    v &&& tailMask k rem = tailWord msg pos rem k := by
  apply eq_of_lane_eq
  intro j hj
  rw [lane_and, lane_tailMask k rem hj, lane_tailWord msg pos rem k hj]
  split
  · next hused => rw [BitVec.and_allOnes, List.getD_eq_getElem?_getD, ← h j hj hused, Option.getD_some]
  · exact BitVec.and_zero

/-! ### The cascade of the tail merge (R104, R106) -/

theorem tailTerm_of_le {rem i : Nat} (h : rem ≤ i) (msg : List Byte) (pos sh : Nat) (x : Word) :
    tailTerm msg pos rem i sh x = x :=
  if_neg (by omega)

/-- A conditional byte addition adds one lane of a tail word, shifted by where the word starts in its accumulator. -/
theorem tailTerm_eq_add_tailLane (msg : List Byte) (pos rem k j sh : Nat) (x : Word) :
    tailTerm msg pos rem (4 * k + j) (8 * j + sh) x = x + tailLane msg pos rem k j <<< sh := by
  simp only [tailTerm, tailLane, Nat.add_one_le_iff]
  by_cases h : 4 * k + j < rem
  · rw [if_pos h, if_pos h, BitVec.shiftLeft_add]
  · rw [if_neg h, if_neg h, BitVec.zero_shiftLeft, BitVec.add_zero]

/-- The four conditional additions of a tail word, from the highest byte down, add the word. -/
theorem tailTerms_eq_add_tailWord (msg : List Byte) (pos rem k sh : Nat) (x : Word) :
    tailTerm msg pos rem (4 * k + 0) (8 * 0 + sh) (tailTerm msg pos rem (4 * k + 1) (8 * 1 + sh)
        (tailTerm msg pos rem (4 * k + 2) (8 * 2 + sh) (tailTerm msg pos rem (4 * k + 3) (8 * 3 + sh) x))) =
      x + tailWord msg pos rem k <<< sh := by
  simp only [tailTerm_eq_add_tailLane, tailWord_eq_add, BitVec.shiftLeft_add_distrib]
  abel

/-- The cascade adds the three tail words. For `c` a fourth addition is supplied, which a tail of at most 11 bytes does
not perform. -/
theorem tailMerge_eq_add_tailWord (msg : List Byte) (pos : Nat) {rem : Nat} (m : Acc) (hrem : rem ≤ 11) :
    tailMerge msg pos rem m =
      ⟨m.a + tailWord msg pos rem 0, m.b + tailWord msg pos rem 1, m.c + tailWord msg pos rem 2 <<< 8⟩ := by
  have ha := tailTerms_eq_add_tailWord msg pos rem 0 0 m.a
  have hb := tailTerms_eq_add_tailWord msg pos rem 1 0 m.b
  have hc := tailTerms_eq_add_tailWord msg pos rem 2 8 m.c
  rw [tailTerm_of_le hrem] at hc
  rw [BitVec.shiftLeft_zero] at ha hb
  rw [← ha, ← hb, ← hc]
  rfl

theorem tailMerge_foldLength (msg : List Byte) (pos : Nat) {rem : Nat} (n : Nat) (m : Acc) (hrem : rem ≤ 11) :
    tailMerge msg pos rem (foldLength n m) = foldLength n (tailMerge msg pos rem m) := by
  rw [tailMerge_eq_add_tailWord msg pos _ hrem, tailMerge_eq_add_tailWord msg pos _ hrem]
  exact congrArg (Acc.mk _ _) (add_right_comm m.c _ _)

/-- Settles O49: the cascade adds the tail words, each of which is its operand word under the tail mask. -/
theorem tailMergeAsMaskedWords : Obligations.TailMergeAsMaskedWords := by
  intro msg pos rem m T hrem _ hT
  rw [and_tailMask_eq_tailWord (k := 0) (hT 0), and_tailMask_eq_tailWord (k := 1) (hT 1),
    and_tailMask_eq_tailWord (k := 2) (hT 2)]
  exact ⟨tailMerge_eq_add_tailWord msg pos m hrem, fun n => tailMerge_foldLength msg pos n m hrem⟩

end Sys2Proof.Machine
end

section
/-! PROOFS. `Mix` (R120, R133 and R134 of 41_mix_pipeline.md): the nine lines written out, its fixed point and its inverse. -/

namespace Sys2Proof.Machine

/-! ### Mix is a bijection (R134) -/

/-- A line equation can be solved for the old `x`: `unline` is the two-sided inverse of `line`. -/
theorem eq_line_iff (x y z sz x' : Word) : x' = line x y z sz ↔ x = unline x' y z sz := by
  constructor
  · rintro rfl
    exact (unline_line x y z sz).symm
  · rintro rfl
    exact (line_unline x' y z sz).symm

/-- `Mix` redoes, line by line, what `unmix` undid. -/
@[simp] theorem mix_unmix (m : Acc) : mix (unmix m) = m := by
  simp [unmix, mix, mixLine1, mixLine2, mixLine3, mixLine4, mixLine5, mixLine6, mixLine7, mixLine8, mixLine9]

theorem mix_bijective : Function.Bijective mix :=
  Function.bijective_iff_has_inverse.2 ⟨unmix, unmix_mix, mix_unmix⟩

/-- Settles O7: `unline` inverts a line, and so `unmix`, which undoes the nine lines from the last on, inverts `Mix`. -/
theorem mixIsABijection : Obligations.MixIsABijection :=
  ⟨eq_line_iff, unmix_mix, mix_unmix, mix_bijective⟩

/-! ### The nine lines (R120) -/

/-- The nine lines of `Mix` in the order they run. -/
def mixLines : List (Acc → Acc) :=
  [mixLine1, mixLine2, mixLine3, mixLine4, mixLine5, mixLine6, mixLine7, mixLine8, mixLine9]

theorem mix_eq_foldl_mixLines (m : Acc) : mix m = mixLines.foldl (fun m f => f m) m := rfl

/-- Settles O5: the nine lines of `mix` unfold to the rule's assignments, in its order. -/
theorem mixIsTheNineLines : Obligations.MixIsTheNineLines :=
  fun _ _ _ => rfl

/-! ### Zero is a fixed point (R133) -/

@[simp] theorem line_zero : line 0#32 0#32 0#32 0#32 = 0#32 := by
  simp [line]

theorem mixLines_zero : ∀ f ∈ mixLines, f ⟨0, 0, 0⟩ = ⟨0, 0, 0⟩ := by
  simp [mixLines, mixLine1, mixLine2, mixLine3, mixLine4, mixLine5, mixLine6, mixLine7, mixLine8, mixLine9]

/-- What every line leaves as it is, their composition does too. -/
theorem mix_zero : mix ⟨0, 0, 0⟩ = ⟨0, 0, 0⟩ := by
  rw [mix_eq_foldl_mixLines]
  refine List.foldlRecOn (motive := fun m : Acc => m = ⟨0, 0, 0⟩) mixLines _ rfl ?_
  rintro m rfl f hf
  exact mixLines_zero f hf

/-- Settles O6: a shift of zero is zero, so a line on zeros is `line 0 0 0 0`, and each of the nine lines keeps zero. -/
theorem mixFixesZero : Obligations.MixFixesZero := by
  refine ⟨mix_zero, fun n => ?_, List.map_eq_replicate_iff.2 mixLines_zero⟩
  have hright : (0 : Word) >>> n = 0 := BitVec.zero_ushiftRight
  have hleft : (0 : Word) <<< n = 0 := BitVec.zero_shiftLeft n
  rw [hright, hleft]
  exact ⟨line_zero, line_zero⟩

end Sys2Proof.Machine
end

section
/-! PROOFS. The two steps of a command (42_commands.md): its issue, check by check (R141), and its perform as one named
state (R143, R146, R148, R150), with the fault mark of an `undefined` use (R151). -/

namespace Sys2Proof.Machine

/-! ### The checks of an issue (R141) -/

theorem issueCmd_of_busy {s : State} (w : Word) (hbusy : s.busy = true) : issueCmd w s = raiseError .busy s :=
  if_pos hbusy

theorem issueCmd_of_illegal {s : State} {w : Word} (hbusy : s.busy = false) (hdec : ∃ e, decode w = .error e) :
    issueCmd w s = raiseError .illegalCmd s := by
  obtain ⟨e, he⟩ := hdec
  simp [issueCmd, hbusy, he]

theorem issueCmd_of_wrong_phase {s : State} {w : Word} {i : Instr} (hbusy : s.busy = false) (hdec : decode w = .ok i)
    (hinit : i ≠ .init) (hphase : s.phase ≠ .active) : issueCmd w s = raiseError .sequence s := by
  have hnot : ¬ s.phaseAllows i = true := fun h => ((s.phaseAllows_iff i).1 h).elim hinit hphase
  simp [issueCmd, hbusy, hdec, hnot]

/-- The state an accepted issue leaves, written out. -/
theorem acceptCmd_eq (i : Instr) (s : State) : acceptCmd i s =
    { s with
      pend := ⟨some i, s.data0, s.data1, s.data2⟩
      err := if i = .init then false else s.err
      errCode := if i = .init then .noError else s.errCode
      busy := true } := by
  by_cases h : i = .init <;> simp [acceptCmd, clearError, h]

theorem acceptCmd_init (s : State) : acceptCmd .init s =
    { s with
      pend := ⟨some .init, s.data0, s.data1, s.data2⟩, err := false, errCode := .noError, busy := true } :=
  rfl

/-- BLOCK and FINAL leave the recorded error as it is. -/
theorem acceptCmd_of_ne_init {i : Instr} (h : i ≠ .init) (s : State) :
    acceptCmd i s = { s with pend := ⟨some i, s.data0, s.data1, s.data2⟩, busy := true } := by
  simp [acceptCmd, h]

/-- Settles O11: one lemma per check, in the order of the rule. -/
theorem issueFollowsTheChecks : Obligations.IssueFollowsTheChecks := by
  refine fun s w => ⟨fun hbusy => issueCmd_of_busy w hbusy, fun e hbusy hdec => issueCmd_of_illegal hbusy ⟨e, hdec⟩,
    fun i hbusy hdec hinit hphase => issueCmd_of_wrong_phase hbusy hdec hinit hphase,
    fun i hbusy hdec hphase => ?_⟩
  rw [issueCmd_of_accepted hbusy hdec hphase, acceptCmd_eq]

/-- No word but a command's own has the OP of that command, where the OP names one command only. -/
theorem illegal_of_op {w : Word} {i : Instr} (honly : ∀ j : Instr, j.op = i.op → j = i)
    (hop : w.extractLsb' 0 4 = i.op) (hne : w ≠ encode i) : ∃ e, decode w = .error e := by
  refine illegal_of_forall_ne fun j hdec => hne ?_
  obtain ⟨hj, -⟩ := fields_of_decode hdec
  rw [encode_of_decode hdec, honly j (hj.symm.trans hop)]

theorem eq_init_of_op (j : Instr) (h : j.op = Instr.init.op) : j = .init := by
  cases j with
  | init => rfl
  | block | final _ => simp [Instr.op] at h

theorem eq_block_of_op (j : Instr) (h : j.op = Instr.block.op) : j = .block := by
  cases j with
  | block => rfl
  | init | final _ => simp [Instr.op] at h

theorem decode_final_word {rem : BitVec 4} (h : rem.toNat ≤ 11) :
    decode (0x00000003#32 ||| rem.setWidth 32 <<< 8) = .ok (.final rem) :=
  decode_encode ((wf_final_iff rem).2 h)

theorem Phase.ne_active {p : Phase} (h : p = .idle ∨ p = .done) : p ≠ .active := by
  rcases h with rfl | rfl <;> decide

/-! ### The state a perform leaves (R143, R146, R148) -/

/-- `LEN` after the perform of a command. -/
def performLen (s : State) : Instr → Word
  | .init => 0#32
  | .block => s.length + 12#32
  | .final rem => s.length + rem.setWidth 32

/-- The state after the perform of a command: `exec_eq` says that it is what `exec` answers. -/
def afterPerform (i : Instr) (s : State) : State :=
  { s.setAcc (performAcc s i) |>.noteUndefined (s.performUndefined i) with
    len := Reg.of (performLen s i), phase := phaseAfter i s.phase, busy := false }

theorem exec_eq (i : Instr) (s : State) : exec i s = .next (afterPerform i s) := by
  cases i with
  | init | block | final _ => rfl

/-- A perform that uses no `undefined` value changes `A`, `B`, `C`, `LEN`, `PHASE` and `BUSY` only. -/
theorem afterPerform_of_defined {i : Instr} {s : State} (h : s.performUndefined i = false) :
    afterPerform i s =
      { s with
        a := Reg.of (performAcc s i).a, b := Reg.of (performAcc s i).b, c := Reg.of (performAcc s i).c
        len := Reg.of (performLen s i), phase := phaseAfter i s.phase, busy := false } := by
  simp [afterPerform, State.noteUndefined, State.setAcc, h]

theorem performUndefined_eq_false {i : Instr} {s : State}
    (hop : ∀ k, usesData i k = true → (s.pend.operand k).written = true)
    (hacc : needsActive i = true → s.accWritten = true) : s.performUndefined i = false := by
  rw [← Bool.not_eq_true, performUndefined_iff]
  rintro (⟨k, huse, hundef⟩ | ⟨hneeds, hundef⟩)
  · simp [hop k huse] at hundef
  · simp [hacc hneeds] at hundef

theorem accWritten_iff (s : State) : s.accWritten = true ↔
    s.a.written = true ∧ s.b.written = true ∧ s.c.written = true ∧ s.len.written = true := by
  simp [State.accWritten, and_assoc]

theorem State.acc_of_written {s : State} (h : s.accWritten = true) : s.acc = ⟨s.a.bits, s.b.bits, s.c.bits⟩ := by
  obtain ⟨ha, hb, hc, -⟩ := (accWritten_iff s).1 h
  simp [State.acc, ha, hb, hc]

theorem State.length_of_written {s : State} (h : s.accWritten = true) : s.length = s.len.bits := by
  obtain ⟨-, -, -, hlen⟩ := (accWritten_iff s).1 h
  simp [State.length, hlen]

/-! ### The perform of each command -/

theorem exec_init_of_written {s : State} (h : s.pend.d0.written = true) : exec .init s = .next
    { s with
      a := Reg.of Config.golden, b := Reg.of Config.golden, c := Reg.of s.pend.d0.bits
      len := Reg.of 0#32, phase := .active, busy := false } := by
  have hdef : s.performUndefined .init = false :=
    performUndefined_eq_false (fun k hk => by obtain rfl : k = 0 := beq_iff_eq.1 hk; exact h) (by simp [needsActive])
  rw [exec_eq, afterPerform_of_defined hdef]
  simp [performAcc, performLen, phaseAfter, State.operand0, h]

/-- An undefined seed leaves some bits in `C` and sets the fault mark (R151, R212). -/
theorem exec_init_of_unwritten {s : State} (h : s.pend.d0.written = false) : exec .init s = .next
    { s with
      a := Reg.of Config.golden, b := Reg.of Config.golden, c := Reg.of s.operand0
      len := Reg.of 0#32, phase := .active, busy := false, mark := true, draws := s.draws + 1 } := by
  have hundef : s.performUndefined .init = true := (performUndefined_iff _ s).2 (.inl ⟨0, rfl, h⟩)
  rw [exec_eq]
  simp [afterPerform, State.noteUndefined, State.setAcc, hundef, performAcc, performLen, phaseAfter]

theorem exec_block_of_written {s : State} (hacc : s.accWritten = true)
    (hop : ∀ k, (s.pend.operand k).written = true) : exec .block s = .next
    (let m := blockAcc ⟨s.a.bits, s.b.bits, s.c.bits⟩ s.pend.d0.bits s.pend.d1.bits s.pend.d2.bits
     { s with
       a := Reg.of m.a, b := Reg.of m.b, c := Reg.of m.c, len := Reg.of (s.len.bits + 12#32), busy := false }) := by
  have h0 : s.pend.d0.written = true := hop 0
  have h1 : s.pend.d1.written = true := hop 1
  have h2 : s.pend.d2.written = true := hop 2
  rw [exec_eq, afterPerform_of_defined (performUndefined_eq_false (fun k _ => hop k) fun _ => hacc)]
  simp [performAcc, performLen, phaseAfter, State.acc_of_written hacc, State.length_of_written hacc, State.operand0,
    State.operand1, State.operand2, h0, h1, h2]

/-- Under the tail mask an operand's free value is never seen: where FINAL does not use the operand, the mask is 0. -/
theorem operandValue_and_tailMask {s : State} {rem : BitVec 4} {k : Fin 3}
    (h : usesData (.final rem) k = true → (s.pend.operand k).written = true) :
    s.operandValue k &&& tailMask k rem.toNat = (s.pend.operand k).bits &&& tailMask k rem.toNat := by
  by_cases huse : usesData (.final rem) k = true
  · rw [State.operandValue, State.valueOf_written _ _ _ (h huse)]
  · rw [usesData_final_iff] at huse
    rw [tailMask_eq_zero (show rem.toNat ≤ 4 * k.val by omega), BitVec.and_zero, BitVec.and_zero]

theorem exec_final_of_written {s : State} {rem : BitVec 4} (hacc : s.accWritten = true)
    (hop : ∀ k, usesData (.final rem) k = true → (s.pend.operand k).written = true) : exec (.final rem) s = .next
    (let n := s.len.bits + rem.setWidth 32
     let m := finalAcc ⟨s.a.bits, s.b.bits, s.c.bits⟩ n rem.toNat s.pend.d0.bits s.pend.d1.bits s.pend.d2.bits
     { s with
       a := Reg.of m.a, b := Reg.of m.b, c := Reg.of m.c, len := Reg.of n, phase := .done, busy := false }) := by
  have h0 : s.operand0 &&& tailMask 0 rem.toNat = s.pend.d0.bits &&& tailMask 0 rem.toNat :=
    operandValue_and_tailMask (hop 0)
  have h1 : s.operand1 &&& tailMask 1 rem.toNat = s.pend.d1.bits &&& tailMask 1 rem.toNat :=
    operandValue_and_tailMask (hop 1)
  have h2 : s.operand2 &&& tailMask 2 rem.toNat = s.pend.d2.bits &&& tailMask 2 rem.toNat :=
    operandValue_and_tailMask (hop 2)
  rw [exec_eq, afterPerform_of_defined (performUndefined_eq_false hop fun _ => hacc)]
  simp [performAcc, performLen, phaseAfter, finalAcc, State.acc_of_written hacc, State.length_of_written hacc, h0, h1,
    h2]

/-- Settles O12: INIT's OP names no other command, its issue is accepted in every PHASE, and its perform uses the seed
alone. -/
theorem initCommand : Obligations.InitCommand := by
  refine ⟨decode_init_word, fun s hbusy => ?_, fun s hbusy => issueCmd_of_busy _ hbusy,
    fun s w hbusy hop hne => issueCmd_of_illegal hbusy (illegal_of_op eq_init_of_op hop hne),
    fun s hseed => exec_init_of_written hseed, fun s hseed => ⟨_, _, exec_init_of_unwritten hseed⟩⟩
  rw [issueCmd_of_accepted hbusy decode_init_word (.inl rfl), acceptCmd_init]

/-- Settles O13: BLOCK's OP names no other command, its issue needs ACTIVE, and its perform uses the accumulators, LEN
and the three operands. -/
theorem blockCommand : Obligations.BlockCommand := by
  refine ⟨decode_block_word, fun s hbusy hphase => ?_, fun s hbusy => issueCmd_of_busy _ hbusy,
    fun s w hbusy hop hne => issueCmd_of_illegal hbusy (illegal_of_op eq_block_of_op hop hne),
    fun s hbusy hphase =>
      issueCmd_of_wrong_phase hbusy decode_block_word Instr.noConfusion (Phase.ne_active hphase),
    fun s hacc hop => exec_block_of_written hacc hop⟩
  rw [issueCmd_of_accepted hbusy decode_block_word (.inr hphase), acceptCmd_of_ne_init Instr.noConfusion]

/-- Settles O14: a word with OP 3 is illegal for its REM or for its reserved bits; the perform takes the operands under
the tail mask, so those it does not use may be unwritten. -/
theorem finalCommand : Obligations.FinalCommand := by
  obtain ⟨-, -, -, hreserved, -, -, hrem⟩ := fieldsAndReservedEncodings
  refine ⟨fun rem h => decode_final_word h, fun s rem h hbusy hphase => ?_,
    fun s rem _ hbusy => issueCmd_of_busy _ hbusy,
    fun s w hbusy hop hill => issueCmd_of_illegal hbusy (hill.elim (hrem w hop) (hreserved w)),
    fun s rem h hbusy hphase =>
      issueCmd_of_wrong_phase hbusy (decode_final_word h) Instr.noConfusion (Phase.ne_active hphase),
    fun s rem hacc hop => exec_final_of_written hacc hop⟩
  rw [issueCmd_of_accepted hbusy (decode_final_word h) (.inr hphase), acceptCmd_of_ne_init Instr.noConfusion]

/-- Settles O18: what INIT leaves in `A`, `B`, `C`, `LEN` and `PHASE` names nothing of the state but the seed
operand. -/
theorem initAbandonsTheEarlierHash : Obligations.InitAbandonsTheEarlierHash := by
  intro s s' t t' hseed hwritten ht ht'
  rw [exec_init_of_written hwritten] at ht
  rw [exec_init_of_written (hseed ▸ hwritten), ← hseed] at ht'
  cases ht
  cases ht'
  exact ⟨rfl, rfl, rfl, rfl, rfl⟩

/-! ### The fault mark of a perform, and the recorded error (R145, R151) -/

theorem needsActive_iff (i : Instr) : needsActive i = true ↔ i ≠ .init := by
  cases i <;> simp [needsActive]

theorem accWritten_eq_false_iff (s : State) : s.accWritten = false ↔
    s.a.written = false ∨ s.b.written = false ∨ s.c.written = false ∨ s.len.written = false := by
  simp only [State.accWritten, Bool.and_eq_false_iff, or_assoc]

/-- A perform leaves the recorded error as it is (R145, R151). -/
theorem exec_error {i : Instr} {s t : State} (h : exec i s = .next t) : t.err = s.err ∧ t.errCode = s.errCode := by
  obtain ⟨-, -, -, -, herr, hcode, -⟩ := exec_frame i s t h
  exact ⟨herr, hcode⟩

/-- BLOCK and FINAL are pending in ACTIVE only, where the accumulators and LEN are written. -/
theorem accWritten_of_pending {s : State} {i : Instr} (hinv : s.Inv) (hbusy : s.busy = true)
    (hcmd : s.pend.cmd = some i) (hneeds : needsActive i = true) : s.accWritten = true := by
  obtain ⟨j, hj, -, hactive⟩ := hinv.busy_pending hbusy
  obtain rfl : j = i := Option.some.inj (hj.symm.trans hcmd)
  exact hinv.phase_written (by simp [hactive hneeds])

/-- Settles O16: the mark is that of `performUndefined`, and in the invariant only its first case can arise. -/
theorem performMarksUndefinedUse : Obligations.PerformMarksUndefinedUse := by
  refine ⟨fun i s => ?_, fun i s hinv hbusy hcmd hinit =>
    (accWritten_iff s).1 (accWritten_of_pending hinv hbusy hcmd ((needsActive_iff i).2 hinit))⟩
  obtain ⟨t, ht⟩ := exec_exists_next i s
  refine ⟨t, ht, ?_, exec_error ht⟩
  rw [exec_mark ht, Bool.or_eq_true, performUndefined_iff, needsActive_iff, accWritten_eq_false_iff]

/-- A CMD write that is not an accepted INIT keeps a recorded error and its code. -/
theorem issueCmd_keeps_error {w : Word} {s : State} (herr : s.err = true)
    (hword : s.busy = true ∨ decode w ≠ .ok .init) :
    (issueCmd w s).err = true ∧ (issueCmd w s).errCode = s.errCode := by
  obtain ⟨-, h⟩ | ⟨-, -, h⟩ | ⟨-, -, h⟩ | ⟨hbusy, i, hdec, -, h⟩ := issueCmd_cases w s
  · simp [h, herr]
  · simp [h, herr]
  · simp [h, herr]
  · have hinit : i ≠ .init := by
      rintro rfl
      exact hword.elim (by simp [hbusy]) (· hdec)
    simp [h, hinit, herr]

/-- Settles O19: only `acceptCmd .init` clears the error, at the issue; `exec` does not touch it. -/
theorem initClearsErrorAtIssue : Obligations.InitClearsErrorAtIssue := by
  have hissue : ∀ s : State, s.busy = false → issueCmd 0x00000001#32 s = acceptCmd .init s :=
    fun s hbusy => issueCmd_of_accepted hbusy decode_init_word (.inl rfl)
  refine ⟨fun s hbusy => ?_, fun i s t h => exec_error h, fun w s herr hword => issueCmd_keeps_error herr hword,
    fun s t code hbusy h => ?_⟩
  · rw [hissue s hbusy]
    simp
  · obtain ⟨herr, hcode⟩ := exec_error h
    rw [herr, hcode, hissue s hbusy]
    simp

end Sys2Proof.Machine
end

section
/-! PROOFS. The run of a hash (R152, R153 of 42_commands.md): a command is issued, polled out and performed whatever the
order of the turns (R243), and the canonical sequence follows the block loop of the reference function (R100, R102). -/

namespace Sys2Proof.Machine

/-! ### Reaching a state -/

/-- Some steps lead from `s` to `t`. -/
abbrev Reaches : State → State → Prop := Relation.ReflTransGen fun s t => step s = .next t

theorem run_of_step {s t : State} (h : step s = .next t) (n : Nat) :
    Host.Core.run Sys2Proof.core (n + 1) s = Host.Core.run Sys2Proof.core n t := by
  have hcore : Sys2Proof.core.step s = .next t := h
  simp only [Host.Core.run, hcore]

theorem exists_run_of_reaches {s t : State} (h : Reaches s t) : ∃ n, Host.Core.run Sys2Proof.core n s = .next t := by
  induction h using Relation.ReflTransGen.head_induction_on with
  | refl => exact ⟨0, rfl⟩
  | head hstep _ ih =>
    obtain ⟨n, hn⟩ := ih
    exact ⟨n + 1, (run_of_step hstep n).trans hn⟩

/-! ### What the host's side of the state does not change -/

/-- The host's side of a state replaced: the inputs to come, the turns and the last answer (log 5, 6, 9). -/
def State.setHost (is : List Input) (ts : List Agent) (r : Option ReadData) (s : State) : State :=
  { s with inputs := is, turns := ts, lastRead := r }

section
variable (is is' : List Input) (ts ts' : List Agent) (r r' : Option ReadData) (s : State)

@[simp] theorem State.setHost_setHost : (s.setHost is ts r).setHost is' ts' r' = s.setHost is' ts' r' := rfl
@[simp] theorem State.setHost_busy : (s.setHost is ts r).busy = s.busy := rfl
@[simp] theorem State.setHost_phase : (s.setHost is ts r).phase = s.phase := rfl
@[simp] theorem State.setHost_pend : (s.setHost is ts r).pend = s.pend := rfl
@[simp] theorem State.setHost_base : (s.setHost is ts r).base = s.base := rfl

@[simp] theorem State.setData_setHost (k : Fin 3) (v : Word) :
    (s.setHost is ts r).setData k v = (s.setData k v).setHost is ts r := by
  fin_cases k <;> rfl

@[simp] theorem acceptCmd_setHost (i : Instr) :
    acceptCmd i (s.setHost is ts r) = (acceptCmd i s).setHost is ts r := by
  unfold acceptCmd
  split <;> rfl

@[simp] theorem afterPerform_setHost (i : Instr) :
    afterPerform i (s.setHost is ts r) = (afterPerform i s).setHost is ts r := by
  cases i with
  | init | block | final _ => rfl

end

/-! ### One step of a run -/

/-- With no command pending the host moves, and its choice uses up no turn. -/
theorem step_idle {s : State} {x : Input} {rest : List Input} (hbusy : s.busy = false) (hin : s.inputs = x :: rest) :
    step s = .next (applyInput x (s.setHost rest s.turns s.lastRead)) := by
  simp [step, turnStep, State.nextAgent, State.passTurn, hostTurn, State.setHost, hbusy, hin]

theorem step_host {s : State} {x : Input} {rest : List Input} {ts : List Agent} (hbusy : s.busy = true)
    (hturns : s.turns = .host :: ts) (hin : s.inputs = x :: rest) :
    step s = .next (applyInput x (s.setHost rest ts s.lastRead)) := by
  simp [step, turnStep, State.nextAgent, State.passTurn, hostTurn, State.setHost, hbusy, hturns, hin]

theorem step_core {s : State} {i : Instr} (hbusy : s.busy = true) (hturns : s.turns.headD .core = .core)
    (hcmd : s.pend.cmd = some i) :
    step s = .next ((afterPerform i s).setHost s.inputs s.turns.tail s.lastRead) := by
  have hpass : s.passTurn = s.setHost s.inputs s.turns.tail s.lastRead := by
    simp [State.passTurn, State.setHost, hbusy]
  rw [← afterPerform_setHost, ← exec_eq, ← hpass]
  simp only [step, turnStep, State.nextAgent, coreTurn, hbusy, hturns, if_true, State.passTurn_pend, hcmd]

theorem applyInput_poll (s : State) : applyInput .poll s =
    s.setHost (if s.busy then .poll :: s.inputs else s.inputs) s.turns (some (.value s.status)) :=
  poll_eq s

/-- `WR <reg>, v` (R81) writes at the register's offset. -/
theorem applyInput_wr (r : RegName) (v : Word) (s : State) :
    applyInput (wr s.base r v) s = writeOffset (BitVec.ofNat 6 (regOffset r)) v 32 s := by
  have hoff : regOffset r = (BitVec.ofNat 6 (regOffset r)).toNat := by cases r <;> rfl
  rw [wr, applyInput, busWrite, (windowOffset_eq_some _ _ _).2 (congrArg (s.base + ·) hoff)]

/-- The name of `DATA[k]` (R51). -/
def dataReg : Fin 3 → RegName
  | 0 => .data0
  | 1 => .data1
  | 2 => .data2

theorem applyInput_wr_dataReg (k : Fin 3) (v : Word) (s : State) :
    applyInput (wr s.base (dataReg k) v) s = s.setData k v := by
  rw [applyInput_wr]
  fin_cases k <;> rfl

theorem applyInput_wr_cmd (w : Word) (s : State) : applyInput (wr s.base .cmd w) s = issueCmd w s := by
  rw [applyInput_wr]
  rfl

theorem step_wr_data {s : State} {rest : List Input} (k : Fin 3) {v : Word} (hbusy : s.busy = false)
    (hin : s.inputs = wr s.base (dataReg k) v :: rest) :
    step s = .next ((s.setData k v).setHost rest s.turns s.lastRead) := by
  rw [step_idle hbusy hin, ← State.setHost_base rest s.turns s.lastRead s, applyInput_wr_dataReg, State.setData_setHost]

theorem step_wr_cmd {s : State} {rest : List Input} {i : Instr} (hbusy : s.busy = false) (hwf : i.wf = true)
    (hphase : i = .init ∨ s.phase = .active) (hin : s.inputs = wr s.base .cmd (encode i) :: rest) :
    step s = .next ((acceptCmd i s).setHost rest s.turns s.lastRead) := by
  rw [step_idle hbusy hin, ← State.setHost_base rest s.turns s.lastRead s, applyInput_wr_cmd,
    issueCmd_of_accepted (by simpa using hbusy) (decode_encode hwf) (by simpa using hphase), acceptCmd_setHost]

/-! ### A command polled out -/

/-- At a turn of the core, or with no turn left, the pending command is performed and the POLL ends. -/
theorem reaches_perform_of_core {s : State} {i : Instr} {rest : List Input} (hturns : s.turns.headD .core = .core)
    (hbusy : s.busy = true) (hcmd : s.pend.cmd = some i) (hin : s.inputs = .poll :: rest) :
    ∃ ts r, Reaches s ((afterPerform i s).setHost rest ts r) := by
  have hperform := step_core hbusy hturns hcmd
  have hpoll := step_idle (s := (afterPerform i s).setHost s.inputs s.turns.tail s.lastRead) rfl hin
  rw [applyInput_poll] at hpoll
  exact ⟨_, _, .head hperform (.single hpoll)⟩

/-- A POLL while a command is pending ends with the command performed, by induction on the turns to come: a turn of the
host is a read of STATUS that puts the POLL back. -/
theorem reaches_perform {i : Instr} {rest : List Input} (ts : List Agent) : ∀ s : State, s.turns = ts →
    s.busy = true → s.pend.cmd = some i → s.inputs = .poll :: rest →
    ∃ ts' r, Reaches s ((afterPerform i s).setHost rest ts' r) := by
  induction ts with
  | nil => exact fun s hturns => reaches_perform_of_core (by rw [hturns]; rfl)
  | cons agent ts ih =>
    cases agent with
    | core => exact fun s hturns => reaches_perform_of_core (by rw [hturns]; rfl)
    | host =>
      intro s hturns hbusy hcmd hin
      have hpoll : step s = .next (s.setHost s.inputs ts (some (.value s.status))) := by
        rw [step_host hbusy hturns hin, applyInput_poll, State.setHost_busy, if_pos hbusy, hin]
        rfl
      obtain ⟨ts', r, hrest⟩ := ih (s.setHost s.inputs ts (some (.value s.status))) rfl hbusy hcmd hin
      refine ⟨ts', r, .head hpoll ?_⟩
      simpa using hrest

/-- A CMD write that is accepted and polled out: the command is performed on the state its issue left. -/
theorem reaches_command {s : State} {i : Instr} (hbusy : s.busy = false) (hwf : i.wf = true)
    (hphase : i = .init ∨ s.phase = .active) (rest : List Input) (ts : List Agent) (r : Option ReadData) :
    ∃ ts' r', Reaches (s.setHost (wr s.base .cmd (encode i) :: .poll :: rest) ts r)
      ((afterPerform i (acceptCmd i s)).setHost rest ts' r') := by
  have hissue := step_wr_cmd (s := s.setHost (wr s.base .cmd (encode i) :: .poll :: rest) ts r) hbusy hwf hphase rfl
  obtain ⟨ts', r', hperform⟩ := reaches_perform (i := i) (rest := rest) ts
    ((acceptCmd i s).setHost (.poll :: rest) ts r) rfl (by simp) (by simp) rfl
  simp only [acceptCmd_setHost, afterPerform_setHost, State.setHost_setHost] at hissue hperform
  exact ⟨ts', r', .head hissue hperform⟩

/-- The three DATA writes before a BLOCK or FINAL (R82). -/
def State.setOperands (w0 w1 w2 : Word) (s : State) : State :=
  ((s.setData 0 w0).setData 1 w1).setData 2 w2

theorem State.setOperands_eq (w0 w1 w2 : Word) (s : State) :
    s.setOperands w0 w1 w2 = { s with data0 := Reg.of w0, data1 := Reg.of w1, data2 := Reg.of w2 } :=
  rfl

theorem reaches_operands {s : State} {w0 w1 w2 : Word} {rest : List Input} (hbusy : s.busy = false)
    (hin : s.inputs = wr s.base .data0 w0 :: wr s.base .data1 w1 :: wr s.base .data2 w2 :: rest) :
    Reaches s ((s.setOperands w0 w1 w2).setHost rest s.turns s.lastRead) := by
  have h0 := step_wr_data 0 hbusy hin
  have h1 := step_wr_data 1 (v := w1) (rest := wr s.base .data2 w2 :: rest)
    (s := (s.setData 0 w0).setHost (wr s.base .data1 w1 :: _) s.turns s.lastRead) hbusy rfl
  have h2 := step_wr_data 2 (v := w2) (rest := rest)
    (s := ((s.setData 0 w0).setData 1 w1).setHost (wr s.base .data2 w2 :: _) s.turns s.lastRead) hbusy rfl
  exact .head h0 (.head h1 (.single h2))

/-! ### The states of a hash between its commands -/

/-- `t` is a state of a hash begun in `s`, between two commands: the run from `s` comes to it, with `rest` still to
come, no error recorded and no fault newly marked, in PHASE `ph`, with the accumulators `m` and LEN `n`. -/
structure HashRun (s : State) (ph : Phase) (m : Acc) (n : Word) (rest : List Input) (t : State) : Prop where
  reached : Reaches s t
  inputs : t.inputs = rest
  busy : t.busy = false
  phase : t.phase = ph
  acc : (t.a, t.b, t.c) = m.regs
  len : t.len = Reg.of n
  err : t.err = false
  base : t.base = s.base
  mark : t.mark = s.mark

theorem HashRun.regs {s t : State} {ph : Phase} {m : Acc} {n : Word} {rest : List Input} (h : HashRun s ph m n rest t) :
    t.a = Reg.of m.a ∧ t.b = Reg.of m.b ∧ t.c = Reg.of m.c := by
  simpa [Acc.regs] using h.acc

/-- The state after a perform that used no `undefined` value. -/
theorem hashRun_of_perform {s v : State} {i : Instr} {rest : List Input} {ts : List Agent} {r : Option ReadData}
    (hreach : Reaches s ((afterPerform i v).setHost rest ts r)) (hdef : v.performUndefined i = false)
    (herr : v.err = false) (hbase : v.base = s.base) (hmark : v.mark = s.mark) :
    HashRun s (phaseAfter i v.phase) (performAcc v i) (performLen v i) rest ((afterPerform i v).setHost rest ts r) := by
  rw [afterPerform_of_defined hdef] at hreach ⊢
  exact ⟨hreach, rfl, rfl, rfl, rfl, rfl, herr, hbase, hmark⟩

/-- INIT begins a hash in any state with no command pending, and clears the error an earlier one recorded. -/
theorem hashRun_init {s : State} {seed : Word} {rest : List Input} (hbusy : s.busy = false)
    (hin : s.inputs = asmInit s.base seed ++ rest) : ∃ t, HashRun s .active (hashInit seed) 0#32 rest t := by
  have hseed := step_wr_data 0 hbusy hin
  obtain ⟨ts, r, hperform⟩ := reaches_command (s := s.setData 0 seed) (i := .init) hbusy rfl (.inl rfl) rest s.turns
    s.lastRead
  exact ⟨_, hashRun_of_perform (.head hseed hperform) rfl rfl rfl rfl⟩

/-- BLOCK or FINAL with its three operands, in a hash: the perform is that of a state `v` which holds the accumulators
and LEN of the hash and the operands of the command. -/
theorem HashRun.command {s t : State} {m : Acc} {n w0 w1 w2 : Word} {i : Instr} {rest : List Input}
    (h : HashRun s .active m n (wr s.base .data0 w0 :: wr s.base .data1 w1 :: wr s.base .data2 w2 ::
      wr s.base .cmd (encode i) :: .poll :: rest) t) (hwf : i.wf = true) (hinit : i ≠ .init) :
    ∃ u v, HashRun s (phaseAfter i .active) (performAcc v i) (performLen v i) rest u ∧
      v.acc = m ∧ v.length = n ∧ v.operand0 = w0 ∧ v.operand1 = w1 ∧ v.operand2 = w2 := by
  obtain ⟨ha, hb, hc⟩ := h.regs
  obtain ⟨hreach, hin, hbusy, hphase, -, hlen, herr, hbase, hmark⟩ := h
  rw [← hbase] at hin
  obtain ⟨ts, r, hperform⟩ := reaches_command (s := t.setOperands w0 w1 w2) (i := i) hbusy hwf (.inr hphase) rest
    t.turns t.lastRead
  have hdef : (acceptCmd i (t.setOperands w0 w1 w2)).performUndefined i = false := by
    refine performUndefined_eq_false (fun k _ => ?_) fun _ => ?_
    · rw [acceptCmd_operand]
      fin_cases k <;> rfl
    · simp [State.setOperands_eq, State.accWritten, ha, hb, hc, hlen]
  have hrun := hashRun_of_perform ((hreach.trans (reaches_operands hbusy hin)).trans hperform) hdef
    (by simp [State.setOperands_eq, hinit, herr]) (by simp [State.setOperands_eq, hbase])
    (by simp [State.setOperands_eq, hmark])
  rw [acceptCmd_phase, State.setOperands_eq, hphase] at hrun
  refine ⟨_, _, hrun, ?_, ?_, ?_, ?_, ?_⟩
  · simp [State.acc, ha, hb, hc]
  · simp [State.length, hlen]
  · simp [State.operand0]
  · simp [State.operand1]
  · simp [State.operand2]

theorem HashRun.block {s t : State} {m : Acc} {n w0 w1 w2 : Word} {rest : List Input}
    (h : HashRun s .active m n (asmBlock s.base w0 w1 w2 ++ rest) t) :
    ∃ u, HashRun s .active (blockAcc m w0 w1 w2) (n + 12#32) rest u := by
  obtain ⟨u, v, hrun, rfl, rfl, rfl, rfl, rfl⟩ := HashRun.command (i := .block) h rfl Instr.noConfusion
  exact ⟨u, hrun⟩

theorem HashRun.final {s t : State} {m : Acc} {n w0 w1 w2 : Word} {rem : BitVec 4} {rest : List Input}
    (h : HashRun s .active m n (asmFinal s.base rem w0 w1 w2 ++ rest) t) (hrem : rem.toNat ≤ 11) :
    ∃ u, HashRun s .done (finalAcc m (n + rem.setWidth 32) rem.toNat w0 w1 w2) (n + rem.setWidth 32) rest u := by
  obtain ⟨u, v, hrun, rfl, rfl, rfl, rfl, rfl⟩ :=
    HashRun.command (i := .final rem) h ((wf_final_iff rem).2 hrem) Instr.noConfusion
  exact ⟨u, hrun⟩

/-! ### The BLOCKs and the block loop (R102, R153) -/

theorem asmBlocks_succ (base : Nat) (msg : List Byte) (i : Nat) : asmBlocks base msg (i + 1) =
    asmBlocks base msg i ++ asmBlock base (le32 msg (12 * i)) (le32 msg (12 * i + 4)) (le32 msg (12 * i + 8)) := by
  simp [asmBlocks, List.range_succ]

/-- Each BLOCK of the canonical sequence is one turn of the loop of R100. -/
theorem hashRun_blocks {s : State} {msg : List Byte} {seed : Word} (hbusy : s.busy = false) (i : Nat) :
    ∀ rest : List Input, s.inputs = asmInit s.base seed ++ asmBlocks s.base msg i ++ rest →
      ∃ t, HashRun s .active (afterBlocks msg seed i) (BitVec.ofNat 32 (12 * i)) rest t := by
  induction i with
  | zero => exact fun rest hin => hashRun_init hbusy (by simpa [asmBlocks] using hin)
  | succ i ih =>
    intro rest hin
    rw [asmBlocks_succ, ← List.append_assoc, List.append_assoc] at hin
    obtain ⟨t, ht⟩ := ih _ hin
    obtain ⟨u, hu⟩ := ht.block
    rw [← BitVec.ofNat_add, ← Nat.mul_succ] at hu
    exact ⟨u, hu⟩

/-- The loop of R100 entered at the `i`-th block stops at the last whole one. Fuel for the blocks that are left is
enough. -/
theorem absorbLoop_afterBlocks (msg : List Byte) (seed : Word) (fuel : Nat) : ∀ i, i ≤ msg.length / 12 →
    msg.length / 12 ≤ i + fuel → absorbLoop msg fuel (12 * i) (afterBlocks msg seed i) =
      (12 * (msg.length / 12), afterBlocks msg seed (msg.length / 12)) := by
  induction fuel with
  | zero =>
    intro i hle hfuel
    obtain rfl : i = msg.length / 12 := by omega
    rfl
  | succ fuel ih =>
    intro i hle hfuel
    rw [absorbLoop]
    by_cases hmore : 12 ≤ msg.length - 12 * i
    · rw [if_pos hmore]
      exact ih (i + 1) (by omega) (by omega)
    · obtain rfl : i = msg.length / 12 := by omega
      rw [if_neg hmore]

/-- The loop of R100 absorbs the whole blocks, `floor(len / 12)` of them (R102). -/
theorem absorbLoop_eq (msg : List Byte) (seed : Word) : absorbLoop msg msg.length 0 (hashInit seed) =
    (12 * (msg.length / 12), afterBlocks msg seed (msg.length / 12)) :=
  absorbLoop_afterBlocks msg seed msg.length 0 (Nat.zero_le _) (by omega)

/-! ### FINAL and the end of the reference function (R103, R104, R107) -/

/-- The reference function ends in what FINAL computes from the accumulators of the loop, the length of the message and
the operand words of the tail. -/
theorem hashAcc_eq_finalAcc {msg : List Byte} {seed : Word} {T : Fin 3 → Word}
    (hT : ∀ (k : Fin 3) (j : Nat), j < 4 → 4 * k.val + j < msg.length % 12 →
      some (lane (T k) j) = msg[12 * (msg.length / 12) + (4 * k.val + j)]?) :
    hashAcc msg seed = finalAcc (afterBlocks msg seed (msg.length / 12)) (BitVec.ofNat 32 msg.length)
      (msg.length % 12) (T 0) (T 1) (T 2) := by
  have hrem : msg.length - 12 * (msg.length / 12) = msg.length % 12 := by omega
  obtain ⟨htail, -⟩ := tailMergeAsMaskedWords msg (12 * (msg.length / 12)) (msg.length % 12)
    (foldLength msg.length (afterBlocks msg seed (msg.length / 12))) T (by omega) (by omega) hT
  rw [hashAcc, absorbLoop_eq]
  simp only [hrem, htail]
  rfl

/-- The tail has at most 11 bytes, so REM holds their number. -/
theorem toNat_rem (n : Nat) : (BitVec.ofNat 4 (n % 12)).toNat = n % 12 :=
  (BitVec.toNat_ofNat _ _).trans (Nat.mod_eq_of_lt (by omega))

/-- The bytes of the whole blocks and REM make the length of the message. -/
theorem length_eq_blocks_add_rem (n : Nat) :
    BitVec.ofNat 32 (12 * (n / 12)) + (BitVec.ofNat 4 (n % 12)).setWidth 32 = BitVec.ofNat 32 n := by
  have hrem : (BitVec.ofNat 4 (n % 12)).setWidth 32 = BitVec.ofNat 32 (n % 12) := by
    apply BitVec.eq_of_toNat_eq
    rw [BitVec.toNat_setWidth, toNat_rem, BitVec.toNat_ofNat]
  rw [hrem, ← BitVec.ofNat_add, Nat.div_add_mod]

/-! ### What the registers read -/

theorem readOffset_len (s : State) : readOffset 0x18#6 32 s = if s.ready then s.len.read? else none := rfl

section
variable {s t : State} {ph : Phase} {m : Acc} {n : Word} {rest : List Input}

theorem HashRun.reads (h : HashRun s ph m n rest t) (hph : ph ≠ .idle) :
    readOffset 0x1C#6 32 t = some m.a ∧ readOffset 0x20#6 32 t = some m.b ∧ readOffset 0x24#6 32 t = some m.c ∧
      readOffset 0x18#6 32 t = some n := by
  have hready : t.ready = true := by simp [State.ready, h.busy, h.phase, hph]
  obtain ⟨ha, hb, hc⟩ := h.regs
  simp [readOffset_len, hready, ha, hb, hc, h.len]

theorem HashRun.read_result (h : HashRun s .done m n rest t) : readOffset 0x14#6 32 t = some m.c := by
  have hready : t.resultReady = true := by simp [State.resultReady, h.busy, h.phase]
  obtain ⟨-, -, hc⟩ := h.regs
  simp [hready, hc]

end

/-- Settles O52: the state after INIT and `i` BLOCKs is that of `hashRun_blocks`, in ACTIVE. -/
theorem intermediateStateFollowsTheLoop : Obligations.IntermediateStateFollowsTheLoop := by
  intro s msg seed i rest hbusy _ hin
  obtain ⟨t, h⟩ := hashRun_blocks hbusy i rest hin
  obtain ⟨n, hrun⟩ := exists_run_of_reaches h.reached
  obtain ⟨ha, hb, hc, hlen⟩ := h.reads (by decide)
  exact ⟨n, t, hrun, h.inputs, h.busy, ha, hb, hc, hlen, h.phase, h.mark⟩

/-- The canonical sequence (R152) comes to the state of the hash of the whole message. -/
theorem hashRun_canonicalSequence {s : State} {msg : List Byte} {seed : Word} {T : Fin 3 → Word} {rest : List Input}
    (hbusy : s.busy = false)
    (hT : ∀ (k : Fin 3) (j : Nat), j < 4 → 4 * k.val + j < msg.length % 12 →
      some (lane (T k) j) = msg[12 * (msg.length / 12) + (4 * k.val + j)]?)
    (hin : s.inputs = canonicalSequence s.base msg seed (T 0) (T 1) (T 2) ++ rest) :
    ∃ t, HashRun s .done (hashAcc msg seed) (BitVec.ofNat 32 msg.length) rest t := by
  rw [canonicalSequence, List.append_assoc] at hin
  obtain ⟨t, ht⟩ := hashRun_blocks hbusy (msg.length / 12) _ hin
  obtain ⟨u, hu⟩ := ht.final (by rw [toNat_rem]; omega)
  rw [length_eq_blocks_add_rem, toNat_rem, ← hashAcc_eq_finalAcc hT] at hu
  exact ⟨u, hu⟩

/-- Settles O53: the canonical sequence comes to the state of `hashRun_canonicalSequence`, whose `C` is the answer. -/
theorem canonicalSequenceComputesHash : Obligations.CanonicalSequenceComputesHash := by
  intro s msg seed T rest hbusy hT hin
  obtain ⟨t, h⟩ := hashRun_canonicalSequence hbusy hT hin
  obtain ⟨n, hrun⟩ := exists_run_of_reaches h.reached
  obtain ⟨-, -, -, hlen⟩ := h.reads (by decide)
  exact ⟨n, t, hrun, h.inputs, h.phase, h.busy, hlen, h.read_result, h.err, h.mark⟩

end Sys2Proof.Machine
end

section
/-! PROOFS. The host's accesses over the whole window (R170 to R173 of 43_host_access.md), and the STATUS word (R177). -/

namespace Sys2Proof.Machine

/-! ### The register map (R51, R52) -/

/-- The forms of an access that are not legal (R178). -/
theorem legalForm_eq_false_iff (off : Offset) (wd : Nat) :
    legalForm off wd = false ↔ wd ≠ 32 ∨ off.toNat % 4 ≠ 0 := by
  simp [legalForm, or_iff_not_imp_left]

theorem Offset.eq_ofNat_of_toNat_eq {off : Offset} {n : Nat} (h : off.toNat = n) : off = BitVec.ofNat 6 n := by
  rw [← h, BitVec.ofNat_toNat, BitVec.setWidth_eq]

/-- A register is found only at its own place in the map. -/
theorem toNat_div_four_of_regAt {off : Offset} {r : RegName} (h : regAt off = some r) :
    off.toNat / 4 = regOffset r / 4 := by
  unfold regAt at h
  split at h
  case h_11 => cases h
  all_goals
    obtain rfl := Option.some.inj h
    assumption

/-- Nothing stands at the reserved offsets (R53). -/
theorem regAt_of_reserved {off : Offset} (h : 0x28 ≤ off.toNat) : regAt off = none := by
  cases hr : regAt off with
  | none => rfl
  | some r =>
    have hdiv := toNat_div_four_of_regAt hr
    have hle : regOffset r ≤ 0x24 := by cases r <;> decide
    omega

/-! ### Writes (R170) -/

section
variable {off : Offset} {v : Word} {wd : Nat} {s : State} {k : Fin 3}

theorem writeOffset_of_badForm (h : wd ≠ 32 ∨ off.toNat % 4 ≠ 0) :
    writeOffset off v wd s = raiseError .badAccess s := by
  simp [writeOffset, (legalForm_eq_false_iff off wd).2 h]

/-- From STATUS on no offset takes a write: the registers are read-only and the rest is reserved. -/
theorem writeOffset_of_readOnly (h : 0x10 ≤ off.toNat) : writeOffset off v wd s = raiseError .badAccess s := by
  have hne : ∀ r, regOffset r < 0x10 → regAt off ≠ some r := fun r hlt hr => by
    have hdiv := toNat_div_four_of_regAt hr
    omega
  unfold writeOffset
  split
  · split
    case h_1 hr => exact absurd hr (hne .cmd (by decide))
    case h_2 hr => exact absurd hr (hne .data0 (by decide))
    case h_3 hr => exact absurd hr (hne .data1 (by decide))
    case h_4 hr => exact absurd hr (hne .data2 (by decide))
    all_goals rfl
  · rfl

theorem writeOffset_cmd (h : off.toNat = 0) : writeOffset off v 32 s = issueCmd v s := by
  obtain rfl := Offset.eq_ofNat_of_toNat_eq h
  rfl

theorem writeOffset_data (h : off.toNat = 4 + 4 * k.val) : writeOffset off v 32 s = s.setData k v := by
  obtain rfl := Offset.eq_ofNat_of_toNat_eq h
  fin_cases k <;> rfl

/-! ### Reads (R171) -/

theorem readOffset_of_badForm (h : wd ≠ 32 ∨ off.toNat % 4 ≠ 0) : readOffset off wd s = none := by
  simp [readOffset, (legalForm_eq_false_iff off wd).2 h]

theorem readOffset_of_reserved (h : 0x28 ≤ off.toNat) : readOffset off wd s = none := by
  simp [readOffset, regAt_of_reserved h]

theorem readOffset_cmd (h : off.toNat = 0) : readOffset off wd s = none := by
  obtain rfl := Offset.eq_ofNat_of_toNat_eq h
  exact ite_self none

theorem readOffset_data (h : off.toNat = 4 + 4 * k.val) : readOffset off 32 s = (s.data k).read? := by
  obtain rfl := Offset.eq_ofNat_of_toNat_eq h
  fin_cases k <;> rfl

end

theorem State.ready_iff (s : State) : s.ready = true ↔ s.busy = false ∧ s.phase ≠ .idle := by
  simp [State.ready]

theorem State.resultReady_iff (s : State) : s.resultReady = true ↔ s.busy = false ∧ s.phase = .done := by
  simp [State.resultReady]

/-! ### The answer on the bus -/

theorem busRead_of_outside {s : State} {addr : Nat} (wd : Nat) (h : windowOffset s.base addr = none) :
    busRead addr wd s = s := by
  simp only [busRead, h]

theorem busRead_of_window {s : State} {addr : Nat} {off : Offset} (wd : Nat)
    (h : windowOffset s.base addr = some off) : busRead addr wd s = answerRead (readOffset off wd s) s := by
  simp only [busRead, h]

/-- The frame of a bus read: what the host sees changes, and on an `undefined` answer the fault mark and the count of
draws. -/
theorem busRead_frame (s : State) (addr wd : Nat) : ∃ (ans : Option ReadData) (u : Bool),
    busRead addr wd s = { s with lastRead := ans, mark := s.mark || u, draws := if u then s.draws + 1 else s.draws } ∧
    (u = true ↔ ∃ off, windowOffset s.base addr = some off ∧ readOffset off wd s = none) := by
  cases hw : windowOffset s.base addr with
  | none =>
    refine ⟨s.lastRead, false, ?_, by simp⟩
    rw [busRead_of_outside wd hw, Bool.or_false]
    rfl
  | some off =>
    obtain ⟨d, hd⟩ := answerRead_eq (readOffset off wd s) s
    exact ⟨some d, (readOffset off wd s).isNone, (busRead_of_window wd hw).trans hd, by simp⟩

/-! ### The dispatch over the window -/

/-- Settles O22: an illegal form, CMD, the three DATA registers and everything from STATUS on, each by its own lemma. -/
theorem writeDispatch : Obligations.WriteDispatch := by
  intro s off v wd
  refine ⟨writeOffset_of_badForm, ?_, ?_, ?_, ?_, fun _ _ => writeOffset_of_readOnly⟩
  all_goals rintro rfl hoff
  · exact writeOffset_cmd hoff
  · exact writeOffset_data (k := 0) hoff
  · exact writeOffset_data (k := 1) hoff
  · exact writeOffset_data (k := 2) hoff

/-- Settles O23: the answer at each offset by the lemma of its register, and the frame of the read by `busRead_frame`. -/
theorem readDispatch : Obligations.ReadDispatch := by
  refine ⟨fun s off wd => ?_, busRead_frame, fun s addr wd off v hw hr => ?_⟩
  · simp only [← State.ready_iff, ← State.resultReady_iff]
    refine ⟨readOffset_of_badForm, readOffset_cmd, ?_, ?_, ?_, ?_, ?_, ?_, ?_, ?_, ?_, readOffset_of_reserved⟩
    all_goals rintro rfl hoff
    · exact readOffset_data (k := 0) hoff
    · exact readOffset_data (k := 1) hoff
    · exact readOffset_data (k := 2) hoff
    all_goals obtain rfl := Offset.eq_ofNat_of_toNat_eq hoff
    · exact readOffset_status s
    · exact readOffset_result s
    · exact readOffset_len s
    · exact readOffset_accA s
    · exact readOffset_accB s
    · exact readOffset_accC s
  · rw [busRead_of_window wd hw, hr]
    rfl

/-! ### The STATUS word (R30, R177) -/

/-- A field of `len` bits from bit `start` on is `f` when it has the bits of `f`. -/
theorem State.extractLsb'_status_eq {s : State} {start len : Nat} {f : BitVec len}
    (h : ∀ i < len, s.status.getLsbD (start + i) = f.getLsbD i) : s.status.extractLsb' start len = f := by
  apply BitVec.eq_of_getLsbD_eq
  intro i hi
  rw [BitVec.getLsbD_extractLsb', h i hi, decide_eq_true hi, Bool.true_and]

theorem State.status_busy (s : State) : s.status.extractLsb' 0 1 = BitVec.ofBool s.busy := by
  refine State.extractLsb'_status_eq fun i hi => ?_
  interval_cases i
  simp [State.status]

theorem State.status_phase (s : State) : s.status.extractLsb' 1 2 = s.phase.toBits := by
  refine State.extractLsb'_status_eq fun i hi => ?_
  interval_cases i <;> simp [State.status]

theorem State.status_err (s : State) : s.status.extractLsb' 3 1 = BitVec.ofBool s.err := by
  refine State.extractLsb'_status_eq fun i hi => ?_
  interval_cases i
  simp [State.status]

theorem State.status_errCode (s : State) : s.status.extractLsb' 4 4 = s.errCode.toBits := by
  refine State.extractLsb'_status_eq fun i hi => ?_
  interval_cases i <;> simp [State.status]

/-- Above ERRCODE every field has run out of bits. -/
theorem State.status_high (s : State) : s.status.extractLsb' 8 24 = 0#24 := by
  refine State.extractLsb'_status_eq fun i _ => ?_
  have hbusy : (BitVec.ofBool s.busy).getLsbD (8 + i) = false := BitVec.getLsbD_of_ge _ _ (by omega)
  have hphase : s.phase.toBits.getLsbD (8 + i - 1) = false := BitVec.getLsbD_of_ge _ _ (by omega)
  have herr : (BitVec.ofBool s.err).getLsbD (8 + i - 3) = false := BitVec.getLsbD_of_ge _ _ (by omega)
  have hcode : s.errCode.toBits.getLsbD (8 + i - 4) = false := BitVec.getLsbD_of_ge _ _ (by omega)
  simp only [State.status, BitVec.getLsbD_or, BitVec.getLsbD_shiftLeft, BitVec.getLsbD_setWidth, hbusy, hphase, herr,
    hcode, Bool.and_false, Bool.or_false, BitVec.getLsbD_zero]

/-- Settles O24: STATUS is read in every state, and its fields are those of the bits of the word. -/
theorem statusWordLayout : Obligations.StatusWordLayout := by
  intro s
  refine ⟨readOffset_status s, s.status_busy, s.status_phase.trans ?_, s.status_err, s.status_errCode.trans ?_,
    s.status_high⟩
  · cases s.phase <;> rfl
  · cases s.errCode <;> rfl

/-! ### The DATA registers (R172, R173) -/

/-- The frame of a DATA write: nothing but the DATA registers. -/
theorem State.setData_frame (k : Fin 3) (v : Word) (s : State) :
    s.setData k v = { s with data0 := (s.setData k v).data 0, data1 := (s.setData k v).data 1,
                             data2 := (s.setData k v).data 2 } := by
  fin_cases k <;> rfl

theorem State.setData_setData (k : Fin 3) (v w : Word) (s : State) :
    (s.setData k v).setData k w = s.setData k w := by
  fin_cases k <;> rfl

/-- Settles O25: at the offset of `DATA[k]` a write is `State.setData k` and a read answers `DATA[k]`. -/
theorem dataRegistersReadBack : Obligations.DataRegistersReadBack := by
  intro s k v off hoff
  have hread (t : State) : readOffset off 32 t = (t.data k).read? := readOffset_data hoff
  have hwrite (t : State) : writeOffset off v 32 t = t.setData k v := writeOffset_data hoff
  simp only [hread, hwrite]
  refine ⟨?_, fun j hj => ?_, s.setData_frame k v, s.setData_setData k v v, rfl, ?_⟩
  · rw [State.setData_data, if_pos rfl, Reg.read?_of]
  · rw [State.setData_data, if_neg hj]
  · rw [applyReset_data, Reg.read?_unwritten]

end Sys2Proof.Machine
end

section
/-! PROOFS. Errors (60_exceptions.md): recording one (R205), the write that is a bad access (R204), the order of the
causes (R206), the two ways to clear one (R208), and the fault mark (R212). -/

namespace Sys2Proof.Machine

/-! ### Recording an error (R205) -/

theorem raiseError_of_noError {s : State} (code : ErrorCode) (h : s.err = false) :
    raiseError code s = { s with err := true, errCode := code, mark := true } := by
  simp [raiseError, h]

theorem raiseError_of_error {s : State} (code : ErrorCode) (h : s.err = true) :
    raiseError code s = { s with mark := true } := by
  simp [raiseError, h]

theorem State.phaseAllows_eq_false_iff (s : State) (i : Instr) :
    s.phaseAllows i = false ↔ i ≠ .init ∧ s.phase ≠ .active := by
  rw [← Bool.not_eq_true, State.phaseAllows_iff, not_or]

/-- The checks of an issue read neither ERR nor ERRCODE, so a premise about `s` is one about the state with another error
(`by exact` has it checked after the rewrite has found that state). -/
theorem issueCmd_setError_busy_pend (w : Word) (s : State) (e : Bool) (c : ErrorCode) :
    (issueCmd w { s with err := e, errCode := c }).busy = (issueCmd w s).busy ∧
    (issueCmd w { s with err := e, errCode := c }).pend = (issueCmd w s).pend := by
  obtain ⟨hbusy, h⟩ | ⟨hbusy, hdec, h⟩ | ⟨hbusy, ⟨i, hdec, hphase⟩, h⟩ | ⟨hbusy, i, hdec, hphase, h⟩ :=
    issueCmd_cases w s
  · rw [h, issueCmd_of_busy w (by exact hbusy)]
    exact ⟨rfl, rfl⟩
  · rw [h, issueCmd_of_illegal (by exact hbusy) hdec]
    exact ⟨rfl, rfl⟩
  · obtain ⟨hinit, hactive⟩ := (s.phaseAllows_eq_false_iff i).1 hphase
    rw [h, issueCmd_of_wrong_phase (by exact hbusy) hdec hinit (by exact hactive)]
    exact ⟨rfl, rfl⟩
  · rw [h, issueCmd_of_accepted (by exact hbusy) hdec (by exact (s.phaseAllows_iff i).1 hphase)]
    simp

/-- A perform passes ERR and ERRCODE through. -/
theorem exec_setError {i : Instr} {s t : State} (e : Bool) (c : ErrorCode) (h : exec i s = .next t) :
    exec i { s with err := e, errCode := c } = .next { t with err := e, errCode := c } := by
  cases i with
  | init | block | final _ =>
    cases h
    rfl

/-- Settles O27: the two cases of ERR, and that neither the issue nor the perform reads the error. -/
theorem raiseErrorKeepsTheFirst : Obligations.RaiseErrorKeepsTheFirst :=
  ⟨fun code _ h => raiseError_of_noError code h, fun code _ h => raiseError_of_error code h,
    issueCmd_setError_busy_pend, fun _ _ _ e c h => exec_setError e c h⟩

/-! ### The writes that are no bad access (R204) -/

/-- Below STATUS stand CMD and the three DATA registers (R51). -/
theorem Offset.cmd_or_data {off : Offset} (halign : off.toNat % 4 = 0) (hlow : off.toNat < 0x10) :
    off.toNat = 0 ∨ ∃ k : Fin 3, off.toNat = 4 + 4 * k.val := by
  by_cases hzero : off.toNat = 0
  · exact .inl hzero
  · exact .inr ⟨⟨off.toNat / 4 - 1, by omega⟩, by simp only; omega⟩

theorem raiseError_errCode_ne {code c : ErrorCode} {s : State} (hcode : code ≠ c) (hs : s.errCode ≠ c) :
    (raiseError code s).errCode ≠ c := by
  rw [raiseError_errCode]
  split
  · exact hs
  · exact hcode

/-- No check of an issue raises BAD_ACCESS (R141). -/
theorem issueCmd_errCode_ne_badAccess {s : State} (w : Word) (hs : s.errCode ≠ .badAccess) :
    (issueCmd w s).errCode ≠ .badAccess := by
  obtain ⟨-, h⟩ | ⟨-, -, h⟩ | ⟨-, -, h⟩ | ⟨-, i, -, -, h⟩ := issueCmd_cases w s
  · exact h ▸ raiseError_errCode_ne (by decide) hs
  · exact h ▸ raiseError_errCode_ne (by decide) hs
  · exact h ▸ raiseError_errCode_ne (by decide) hs
  · rw [h, acceptCmd_errCode]
    split
    · decide
    · exact hs

/-- Settles O28: a write that reaches CMD or DATA raises no BAD_ACCESS, and every other write does. -/
theorem badAccessExactlyWhen : Obligations.BadAccessExactlyWhen := by
  refine fun s off v wd => ⟨?_, ?_⟩
  · rintro (hwidth | halign | hhigh)
    · exact writeOffset_of_badForm (.inl hwidth)
    · exact writeOffset_of_badForm (.inr halign)
    · exact writeOffset_of_readOnly hhigh
  · rintro rfl halign hlow hs
    obtain hcmd | ⟨k, hdata⟩ := Offset.cmd_or_data halign hlow
    · exact writeOffset_cmd hcmd ▸ issueCmd_errCode_ne_badAccess v hs
    · rwa [writeOffset_data hdata, State.setData_errCode]

/-! ### The order of the causes (R206) -/

theorem raiseError_first {s : State} (code : ErrorCode) (herr : s.err = false) :
    (raiseError code s).err = true ∧ (raiseError code s).errCode = code := by
  simp [herr]

/-- Settles O29: the form and the offset come first, then the checks of the issue in their order. -/
theorem errorPriorityOrder : Obligations.ErrorPriorityOrder := by
  intro s off v wd herr
  by_cases hform : wd ≠ 32 ∨ off.toNat % 4 ≠ 0
  · simpa [hform, writeOffset_of_badForm hform] using raiseError_first .badAccess herr
  by_cases hhigh : 0x10 ≤ off.toNat
  · simpa [hform, hhigh, writeOffset_of_readOnly hhigh] using raiseError_first .badAccess herr
  obtain ⟨rfl, halign⟩ : wd = 32 ∧ off.toNat % 4 = 0 := by simpa using hform
  obtain hcmd | ⟨k, hdata⟩ := Offset.cmd_or_data halign (by omega)
  · rw [writeOffset_cmd hcmd]
    obtain ⟨hbusy, h⟩ | ⟨hbusy, ⟨e, hdec⟩, h⟩ | ⟨hbusy, ⟨i, hdec, hphase⟩, h⟩ | ⟨hbusy, i, hdec, hphase, h⟩ :=
      issueCmd_cases v s
    · simp [hcmd, hbusy, h, herr]
    · simp [hcmd, hbusy, hdec, h, herr]
    · obtain ⟨hinit, hactive⟩ := (s.phaseAllows_eq_false_iff i).1 hphase
      cases i with
      | init => exact absurd rfl hinit
      | block | final _ => simp [hcmd, hbusy, hdec, hactive, h, herr]
    · have hallowed := (s.phaseAllows_iff i).1 hphase
      cases i with
      | init => simp [hcmd, hbusy, hdec, h]
      | block | final _ =>
        have hactive : s.phase = .active := by simpa using hallowed
        simp [hcmd, hbusy, hdec, hactive, h, herr]
  · have hne : off.toNat ≠ 0 := by omega
    simp [halign, hhigh, hne, writeOffset_data hdata, herr]

/-! ### Clearing an error (R208) -/

/-- The two inputs that clear the error: the reset input, and a CMD write of INIT that is accepted. -/
def ClearsError (s : State) (x : Input) : Prop :=
  x = .reset ∨ ∃ v, x = .write s.base v 32 ∧ decode v = .ok .init ∧ s.busy = false

/-- Any other input keeps a recorded error and its code. -/
theorem applyInput_error_cases (x : Input) {s : State} (herr : s.err = true) :
    (ClearsError s x ∧ (applyInput x s).err = false) ∨
    ((applyInput x s).err = true ∧ (applyInput x s).errCode = s.errCode) := by
  obtain ⟨hx, h⟩ | h | ⟨_, _, _, _, _, _, h⟩ | ⟨_, v, i, rfl, rfl, hbusy, hdec, -, h⟩ | ⟨_, _, _, _, _, h⟩ |
    ⟨_, wd, off, _, _, h⟩ | ⟨_, h⟩ := applyInput_cases x s
  · exact .inl ⟨.inl hx, by simp [h]⟩
  · exact .inr (by simp [h, herr])
  · exact .inr (by simp [h, herr])
  · by_cases hinit : i = .init
    · subst hinit
      exact .inl ⟨.inr ⟨v, rfl, hdec, hbusy⟩, by simp [h]⟩
    · exact .inr (by simp [h, hinit, herr])
  · exact .inr (by simp [h, herr])
  · obtain ⟨d, hd⟩ := answerRead_eq (readOffset off wd s) s
    exact .inr (by simp [h, hd, herr])
  · exact .inr (by simp [h, poll_eq, herr])

/-- A step from a recorded error takes one of the clearing inputs, or keeps the error and its code. -/
theorem step_error_cases {s t : State} (h : step s = .next t) (herr : s.err = true) :
    (s.nextAgent = .host ∧ (∃ x rest, s.inputs = x :: rest ∧ ClearsError s x) ∧ t.err = false) ∨
    (t.err = true ∧ t.errCode = s.errCode) := by
  obtain ⟨-, -, i, -, hexec⟩ | ⟨-, -, rfl⟩ | ⟨hhost, x, rest, hin, rfl⟩ := step_next_cases h
  · obtain ⟨hterr, htcode⟩ := exec_error hexec
    exact .inr ⟨hterr.trans herr, htcode⟩
  · exact .inr ⟨herr, rfl⟩
  · obtain ⟨hclear, hterr⟩ | hkept := applyInput_error_cases x (s := { s.passTurn with inputs := rest }) herr
    · exact .inl ⟨hhost, ⟨x, rest, hin, hclear⟩, hterr⟩
    · exact .inr hkept

/-- Settles O30: a step that clears the error takes one of the two clearing inputs, and both clear it. -/
theorem errorClearedOnlyByInitOrReset : Obligations.ErrorClearedOnlyByInitOrReset := by
  refine ⟨fun s t h herr hterr => ?_, fun s t h herr hterr => ?_, fun s => ⟨applyReset_err s, applyReset_errCode s⟩,
    fun s rest hbusy hin => ⟨_, step_wr_cmd (i := .init) hbusy rfl (.inl rfl) hin, rfl, rfl⟩⟩
  · obtain ⟨hhost, hclear, -⟩ | ⟨hkept, -⟩ := step_error_cases h herr
    · exact ⟨hhost, hclear⟩
    · simp [hkept] at hterr
  · obtain ⟨-, -, hcleared⟩ | ⟨-, hcode⟩ := step_error_cases h herr
    · simp [hcleared] at hterr
    · exact hcode

/-! ### The fault mark (R212) -/

theorem answerRead_mark (ans : Option Word) (s : State) : (answerRead ans s).mark = (s.mark || ans.isNone) := by
  obtain ⟨d, hd⟩ := answerRead_eq ans s
  rw [hd]

/-- What an input does to the mark: nothing, or it sets it, by an `undefined` answer or by an error. -/
theorem applyInput_mark_cases (x : Input) (s : State) :
    (applyInput x s).mark = s.mark ∨
    ((applyInput x s).mark = true ∧
      ((∃ addr wd off, x = .read addr wd ∧ windowOffset s.base addr = some off ∧ readOffset off wd s = none) ∨
       (∃ addr v wd code, x = .write addr v wd ∧ applyInput x s = raiseError code s))) := by
  obtain ⟨_, h⟩ | h | ⟨addr, v, wd, code, hx, _, h⟩ | ⟨_, _, _, _, _, _, _, _, h⟩ | ⟨_, _, _, _, _, h⟩ |
    ⟨addr, wd, off, hx, hoff, h⟩ | ⟨_, h⟩ := applyInput_cases x s
  · exact .inl (by simp [h])
  · exact .inl (by rw [h])
  · exact .inr ⟨by simp [h], .inr ⟨addr, v, wd, code, hx, h⟩⟩
  · exact .inl (by simp [h])
  · exact .inl (by simp [h])
  · cases hread : readOffset off wd s with
    | none => exact .inr ⟨by simp [h, hread, answerRead_mark], .inl ⟨addr, wd, off, hx, hoff, hread⟩⟩
    | some w => exact .inl (by simp [h, hread, answerRead_mark])
  · exact .inl (by simp [h, poll_eq])

/-- What a step does to the mark: nothing, or it sets it, for one of the three reasons of the rule. -/
theorem step_mark_cases {s t : State} (h : step s = .next t) :
    t.mark = s.mark ∨
    (t.mark = true ∧
      ((s.nextAgent = .core ∧ ∃ i, s.pend.cmd = some i ∧ s.performUndefined i = true) ∨
       (s.nextAgent = .host ∧ ∃ x rest, s.inputs = x :: rest ∧
        ((∃ addr wd off, x = .read addr wd ∧ windowOffset s.base addr = some off ∧ readOffset off wd s = none) ∨
         (∃ addr v wd code, x = .write addr v wd ∧ t = raiseError code { s.passTurn with inputs := rest }))))) := by
  obtain ⟨hcore, -, i, hcmd, hexec⟩ | ⟨-, -, rfl⟩ | ⟨hhost, x, rest, hin, rfl⟩ := step_next_cases h
  · have hmark : t.mark = (s.mark || s.performUndefined i) := exec_mark (s := s.passTurn) hexec
    cases hundef : s.performUndefined i with
    | false => exact .inl (by simp [hmark, hundef])
    | true => exact .inr ⟨by simp [hmark, hundef], .inl ⟨hcore, i, hcmd, hundef⟩⟩
  · exact .inl rfl
  · obtain hkept | ⟨hset, hcause⟩ := applyInput_mark_cases x { s.passTurn with inputs := rest }
    · exact .inl hkept
    · exact .inr ⟨hset, .inr ⟨hhost, x, rest, hin, hcause⟩⟩

/-- Settles O31: a step keeps the mark or sets it, and sets it for one of the three reasons only. -/
theorem faultMarkIsSticky : Obligations.FaultMarkIsSticky := by
  refine ⟨fun s t h hmark => ?_, raiseError_mark, fun s => ?_, fun i s t h hundef => ?_, applyReset_mark,
    fun s t h hmark htmark => ?_⟩
  · obtain hkept | ⟨hset, -⟩ := step_mark_cases h
    · exact hkept.trans hmark
    · exact hset
  · rw [answerRead_mark, Option.isNone_none, Bool.or_true]
  · rw [exec_mark h, hundef, Bool.or_true]
  · obtain hkept | ⟨-, hcause⟩ := step_mark_cases h
    · simp [hkept, hmark] at htmark
    · exact hcause

end Sys2Proof.Machine
end

section
/-! PROOFS. The reset input while a command is pending (R231 of 70_reset_and_hazards.md). -/

namespace Sys2Proof.Machine

/-- The core is enabled only by `BUSY` (R150). -/
theorem State.nextAgent_of_not_busy {s : State} (h : s.busy = false) : s.nextAgent = .host := by
  simp [State.nextAgent, h]

/-- A step that takes the reset input is `applyReset`, with the input and the turn used up (R230). -/
theorem step_reset {s t : State} {rest : List Input} (hhost : s.nextAgent = .host)
    (hin : s.inputs = .reset :: rest) (h : step s = .next t) :
    t = applyReset { s.passTurn with inputs := rest } := by
  obtain ⟨hcore, -⟩ | ⟨-, hnil, -⟩ | ⟨-, x, rest', hcons, rfl⟩ := step_next_cases h
  · simp [hhost] at hcore
  · simp [hin] at hnil
  · obtain ⟨rfl, rfl⟩ : .reset = x ∧ rest = rest' := by simpa [hin] using hcons
    rfl

/-- Settles O47: what `applyReset` leaves has BUSY = 0, so the core has nothing to perform and the host moves, and it is
in IDLE, where RESULT answers `undefined`. -/
theorem resetDiscardsThePendingCommand : Obligations.ResetDiscardsThePendingCommand := by
  intro s t rest hhost hin hstep
  obtain rfl := step_reset hhost hin hstep
  refine ⟨applyReset_busy _, ?_, State.nextAgent_of_not_busy (applyReset_busy _), applyReset_mark _,
    applyReset_inputs _, ?_, ?_, ?_⟩
  · rw [applyReset_pend, Pend.empty_cmd]
  · rw [applyReset_a, Reg.written_unwritten]
  · rw [applyReset_c, Reg.written_unwritten]
  · simp [readOffset_result, applyReset_resultReady]

end Sys2Proof.Machine
end

section
/-! PROOFS. What a step leaves as it was: the effect of an input on each part of the state (R12, R20, R25 to R28), the
invariant of the block, and that the machine goes on (R205, R211). -/

namespace Sys2Proof.Machine

/-! ### The invariant (R7, R26, R29, R34, R141, R212) -/

/-- The invariant reads no register's value: it speaks of `BASE`, BUSY, PEND, PHASE, the written marks and the error,
and the fault mark may only be newly set. -/
theorem State.Inv.of_same_control {s t : State} (hinv : s.Inv) (hbase : t.base = s.base) (hbusy : t.busy = s.busy)
    (hpend : t.pend = s.pend) (hphase : t.phase = s.phase) (hacc : t.accWritten = s.accWritten) (herr : t.err = s.err)
    (hcode : t.errCode = s.errCode) (hmark : s.mark = true → t.mark = true) : t.Inv where
  base_aligned := hbase ▸ hinv.base_aligned
  busy_pending := by
    rw [hbusy, hpend, hphase]
    exact hinv.busy_pending
  phase_written := by
    rw [hphase, hacc]
    exact hinv.phase_written
  err_code := by
    rw [herr, hcode]
    exact hinv.err_code
  err_marked h := hmark (hinv.err_marked (herr ▸ h))

theorem applyReset_inv {s : State} (hbase : s.base % Config.windowBytes = 0) : (applyReset s).Inv where
  base_aligned := hbase
  busy_pending h := absurd h (by simp)
  phase_written h := absurd (applyReset_phase s) h
  err_code := by simp
  err_marked h := absurd h (by simp)

/-- The code recorded is that of an error: the one raised, or the one that was recorded before. -/
theorem raiseError_inv {s : State} {code : ErrorCode} (hinv : s.Inv) (hcode : code ≠ .noError) :
    (raiseError code s).Inv where
  base_aligned := hinv.base_aligned
  busy_pending := hinv.busy_pending
  phase_written := hinv.phase_written
  err_code := by
    cases herr : s.err with
    | false => simp [herr, hcode]
    | true => simpa [herr] using hinv.err_code
  err_marked _ := raiseError_mark code s

theorem acceptCmd_inv {s : State} {i : Instr} (hinv : s.Inv) (hwf : i.wf = true) (hallows : s.phaseAllows i = true) :
    (acceptCmd i s).Inv where
  base_aligned := by simpa using hinv.base_aligned
  busy_pending _ := by
    refine ⟨i, by simp, hwf, fun hneeds => ?_⟩
    simpa [State.phaseAllows, hneeds] using hallows
  phase_written := by simpa [State.accWritten] using hinv.phase_written
  err_code := by
    by_cases hinit : i = .init
    · simp [hinit]
    · simpa [hinit] using hinv.err_code
  err_marked := by
    by_cases hinit : i = .init
    · simp [hinit]
    · simpa [hinit] using hinv.err_marked

theorem applyInput_inv (x : Input) {s : State} (hinv : s.Inv) : (applyInput x s).Inv := by
  obtain ⟨-, h⟩ | h | ⟨_, _, _, code, -, hcode, h⟩ | ⟨_, v, i, -, -, -, hdec, hallows, h⟩ | ⟨_, v, k, -, -, h⟩ |
    ⟨_, wd, off, -, -, h⟩ | ⟨-, h⟩ := applyInput_cases x s
  · exact h ▸ applyReset_inv hinv.base_aligned
  · rwa [h]
  · exact h ▸ raiseError_inv hinv hcode
  · exact h ▸ acceptCmd_inv hinv (decode_wf v i hdec) hallows
  · rw [h]
    exact hinv.of_same_control (by simp) (by simp) (by simp) (by simp) (by simp [State.accWritten]) (by simp) (by simp)
      (by simp)
  · obtain ⟨d, hd⟩ := answerRead_eq (readOffset off wd s) s
    rw [h, hd]
    exact hinv.of_same_control rfl rfl rfl rfl rfl rfl rfl (by simp +contextual)
  · rw [h, poll_eq]
    exact hinv.of_same_control rfl rfl rfl rfl rfl rfl rfl id

/-- A perform clears BUSY and writes the accumulators and LEN, so the clauses on BUSY and PHASE hold of what it
leaves. -/
theorem exec_inv {i : Instr} {s t : State} (hinv : s.Inv) (h : exec i s = .next t) : t.Inv := by
  obtain ⟨-, -, -, -, herr, hcode, hbase, -, -, -, hbusy, hacc, hmark⟩ := exec_frame i s t h
  exact {
    base_aligned := hbase ▸ hinv.base_aligned
    busy_pending := fun hb => absurd hb (by simp [hbusy])
    phase_written := fun _ => hacc
    err_code := by
      rw [herr, hcode]
      exact hinv.err_code
    err_marked := fun ht => by simp [hmark, hinv.err_marked (herr ▸ ht)] }

/-- What the host has still to do and the turns are not part of the invariant. -/
theorem State.Inv.setHost {s : State} (hinv : s.Inv) (is : List Input) (ts : List Agent) (r : Option ReadData) :
    (s.setHost is ts r).Inv :=
  hinv.of_same_control rfl rfl rfl rfl rfl rfl rfl id

/-- Settles O41: a step is a perform, an input applied, or nothing, each on the state with its turn used up. -/
theorem stepKeepsInvariant : Obligations.StepKeepsInvariant := by
  intro s t hinv h
  obtain ⟨-, -, i, -, hexec⟩ | ⟨-, -, rfl⟩ | ⟨-, x, rest, -, rfl⟩ := step_next_cases h
  · exact exec_inv (hinv.setHost s.inputs _ s.lastRead) hexec
  · exact hinv.setHost s.inputs _ s.lastRead
  · exact applyInput_inv x (hinv.setHost rest _ s.lastRead)

/-- Settles O42: the state after reset is one the reset input leaves. -/
theorem resetMeetsInvariant : Obligations.ResetMeetsInvariant :=
  applyReset_inv (s := State.reset) rfl

/-- Settles O43: only an empty latch stops a step, and the invariant has a command in it while `BUSY = 1`. -/
theorem machineNeverStops : Obligations.MachineNeverStops := by
  intro s hinv
  obtain ⟨-, h⟩ | ⟨-, -, i, -, h⟩ | ⟨-, hbusy, hnone, -⟩ := step_cases s
  · exact ⟨_, h⟩
  · exact h ▸ exec_exists_next i s.passTurn
  · obtain ⟨i, hcmd, -⟩ := hinv.busy_pending hbusy
    simp [hnone] at hcmd

/-! ### The effect of an input, part by part -/

/-- An input that is not the reset input, an accepted CMD write or a DATA write changes the error, the fault mark and
what is outside the block only; of the inputs to come, a POLL may put itself back. -/
theorem applyInput_change_cases (x : Input) (s : State) :
    (x = .reset ∧ applyInput x s = applyReset s) ∨
    (s.busy = false ∧ ∃ v i, x = .write s.base v 32 ∧ decode v = .ok i ∧ s.phaseAllows i = true ∧
      applyInput x s = acceptCmd i s) ∨
    (∃ (v : Word) (k : Fin 3), x = .write (s.base + (4 + 4 * k.val)) v 32 ∧ applyInput x s = s.setData k v) ∨
    (∃ e code m is r d, (is = s.inputs ∨ is = x :: s.inputs) ∧ applyInput x s =
      { s with err := e, errCode := code, mark := m, inputs := is, lastRead := r, draws := d }) := by
  obtain hreset | h | ⟨_, _, _, code, -, -, h⟩ | ⟨_, v, i, rfl, rfl, hbusy, hdec, hallows, h⟩ |
    ⟨_, v, k, rfl, rfl, h⟩ | ⟨_, wd, off, -, -, h⟩ | ⟨rfl, h⟩ := applyInput_cases x s
  · exact .inl hreset
  · exact .inr (.inr (.inr ⟨_, _, _, _, _, _, .inl rfl, h⟩))
  · exact .inr (.inr (.inr ⟨_, _, _, _, _, _, .inl rfl, h⟩))
  · exact .inr (.inl ⟨hbusy, v, i, rfl, hdec, hallows, h⟩)
  · exact .inr (.inr (.inl ⟨v, k, rfl, h⟩))
  · obtain ⟨d, hd⟩ := answerRead_eq (readOffset off wd s) s
    exact .inr (.inr (.inr ⟨_, _, _, _, _, _, .inl rfl, h.trans hd⟩))
  · refine .inr (.inr (.inr ⟨_, _, _, _, _, _, ?_, h.trans (poll_eq s)⟩))
    cases s.busy
    · exact .inl rfl
    · exact .inr rfl

/-- No access of the host writes `A`, `B`, `C`, LEN or PHASE (R20, R23, R25). -/
theorem applyInput_hash {x : Input} (hx : x ≠ .reset) (s : State) :
    (applyInput x s).a = s.a ∧ (applyInput x s).b = s.b ∧ (applyInput x s).c = s.c ∧ (applyInput x s).len = s.len ∧
      (applyInput x s).phase = s.phase := by
  obtain ⟨hreset, -⟩ | ⟨-, v, i, -, -, -, h⟩ | ⟨v, k, -, h⟩ | ⟨_, _, _, _, _, _, -, h⟩ := applyInput_change_cases x s
  · exact absurd hreset hx
  · simp [h]
  · simp [h]
  · simp [h]

/-- An input leaves `BASE`, the turns and the inputs after it as they are, but for a POLL that puts itself back. -/
theorem applyInput_bus (x : Input) (s : State) :
    (applyInput x s).base = s.base ∧ (applyInput x s).turns = s.turns ∧
      ((applyInput x s).inputs = s.inputs ∨ (applyInput x s).inputs = x :: s.inputs) := by
  obtain ⟨-, h⟩ | ⟨-, v, i, -, -, -, h⟩ | ⟨v, k, -, h⟩ | ⟨_, _, _, _, _, _, his, h⟩ := applyInput_change_cases x s
  · simp [h]
  · simp [h]
  · simp [h]
  · rw [h]
    exact ⟨rfl, rfl, his⟩

/-- An input keeps BUSY and PEND, unless it is the reset input or an accepted CMD write (R26, R27, R141). -/
theorem applyInput_pend_cases (x : Input) (s : State) :
    (x = .reset ∧ (applyInput x s).busy = false) ∨
    ((applyInput x s).busy = s.busy ∧ (applyInput x s).pend = s.pend) ∨
    (s.busy = false ∧ ∃ v i, x = .write s.base v 32 ∧ decode v = .ok i ∧ s.phaseAllows i = true ∧
      (applyInput x s).pend = ⟨some i, s.data0, s.data1, s.data2⟩) := by
  obtain ⟨hx, h⟩ | ⟨hbusy, v, i, hx, hdec, hallows, h⟩ | ⟨v, k, -, h⟩ | ⟨_, _, _, _, _, _, -, h⟩ :=
    applyInput_change_cases x s
  · exact .inl ⟨hx, by simp [h]⟩
  · exact .inr (.inr ⟨hbusy, v, i, hx, hdec, hallows, by simp [h]⟩)
  · exact .inr (.inl (by simp [h]))
  · exact .inr (.inl (by simp [h]))

theorem State.data_congr {s t : State} (h0 : t.data0 = s.data0) (h1 : t.data1 = s.data1) (h2 : t.data2 = s.data2)
    (k : Fin 3) : t.data k = s.data k := by
  fin_cases k
  · exact h0
  · exact h1
  · exact h2

/-- An input keeps `DATA[k]`, unless it is the reset input or a write of that register (R28). -/
theorem applyInput_data_cases (x : Input) (s : State) (k : Fin 3) :
    (applyInput x s).data k = s.data k ∨
    (∃ v, x = .write (s.base + (4 + 4 * k.val)) v 32 ∧ (applyInput x s).data k = Reg.of v) ∨
    (x = .reset ∧ ((applyInput x s).data k).written = false) := by
  obtain ⟨hx, h⟩ | ⟨-, v, i, -, -, -, h⟩ | ⟨v, j, hx, h⟩ | ⟨_, _, _, _, _, _, -, h⟩ := applyInput_change_cases x s
  · exact .inr (.inr ⟨hx, by rw [h, applyReset_data, Reg.written_unwritten]⟩)
  · exact .inl (State.data_congr (by simp [h]) (by simp [h]) (by simp [h]) k)
  · by_cases hk : k = j
    · subst hk
      exact .inr (.inl ⟨v, hx, by rw [h, State.setData_data, if_pos rfl]⟩)
    · exact .inl (by rw [h, State.setData_data, if_neg hk])
  · exact .inl (by rw [h]; rfl)

/-! ### What changes in a step, and by whom -/

/-- Settles O35: of the inputs only the reset input touches `A`, `B`, `C` or LEN. -/
theorem accumulatorsChangeOnlyByPerformOrReset : Obligations.AccumulatorsChangeOnlyByPerformOrReset := by
  intro s t h hne
  obtain ⟨hcore, hbusy, i, hcmd, -⟩ | ⟨-, -, rfl⟩ | ⟨hhost, x, rest, hin, rfl⟩ := step_next_cases h
  · exact .inl ⟨hcore, hbusy, i, hcmd⟩
  · exact absurd ⟨rfl, rfl, rfl, rfl⟩ hne
  · by_cases hx : x = .reset
    · exact .inr ⟨hhost, rest, hx ▸ hin⟩
    · obtain ⟨ha, hb, hc, hlen, -⟩ := applyInput_hash hx { s.passTurn with inputs := rest }
      exact absurd ⟨ha, hb, hc, hlen⟩ hne

/-- A step that changes PHASE is the perform of INIT or FINAL, or takes the reset input (R25). -/
theorem step_phase_cases {s t : State} (h : step s = .next t) (hne : t.phase ≠ s.phase) :
    (s.nextAgent = .core ∧ s.pend.cmd = some .init ∧ t.phase = .active) ∨
    (s.nextAgent = .core ∧ (∃ rem, s.pend.cmd = some (.final rem)) ∧ t.phase = .done) ∨
    (s.nextAgent = .host ∧ (∃ rest, s.inputs = .reset :: rest) ∧ t.phase = .idle) := by
  obtain ⟨hcore, -, i, hcmd, hexec⟩ | ⟨-, -, rfl⟩ | ⟨hhost, x, rest, hin, rfl⟩ := step_next_cases h
  · have hphase := exec_phase i _ t hexec
    cases i with
    | init => exact .inl ⟨hcore, hcmd, hphase⟩
    | block => exact absurd hphase hne
    | final rem => exact .inr (.inl ⟨hcore, ⟨rem, hcmd⟩, hphase⟩)
  · exact absurd rfl hne
  · by_cases hx : x = .reset
    · subst hx
      exact .inr (.inr ⟨hhost, ⟨rest, hin⟩, rfl⟩)
    · obtain ⟨-, -, -, -, hphase⟩ := applyInput_hash hx { s.passTurn with inputs := rest }
      exact absurd hphase hne

/-- Settles O36: no perform leaves IDLE, so a step into IDLE is the reset input's. -/
theorem phaseTransitions : Obligations.PhaseTransitions := by
  refine ⟨fun s t h hne => step_phase_cases h hne, fun s t h hs ht => ?_⟩
  obtain ⟨-, -, hactive⟩ | ⟨-, -, hdone⟩ | ⟨hhost, hreset, -⟩ := step_phase_cases h (ht ▸ hs.symm)
  · simp [ht] at hactive
  · simp [ht] at hdone
  · exact ⟨hhost, hreset⟩

/-- What a step does to BUSY and PEND (R26, R27): the core performs, the reset input discards, an accepted CMD write
latches, and nothing else changes them. -/
theorem step_pend_cases {s t : State} (h : step s = .next t) :
    (s.nextAgent = .core ∧ s.busy = true ∧ (∃ i, s.pend.cmd = some i) ∧ t.busy = false) ∨
    (s.nextAgent = .host ∧ (∃ rest, s.inputs = .reset :: rest) ∧ t.busy = false) ∨
    (t.busy = s.busy ∧ t.pend = s.pend) ∨
    (s.busy = false ∧ ∃ v rest i, s.inputs = .write s.base v 32 :: rest ∧ decode v = .ok i ∧
      (i = .init ∨ s.phase = .active) ∧ t.pend = ⟨some i, s.data0, s.data1, s.data2⟩) := by
  obtain ⟨hcore, hbusy, i, hcmd, hexec⟩ | ⟨-, -, rfl⟩ | ⟨hhost, x, rest, hin, rfl⟩ := step_next_cases h
  · obtain ⟨-, -, -, -, -, -, -, -, -, -, hdone, -, -⟩ := exec_frame i _ t hexec
    exact .inl ⟨hcore, hbusy, ⟨i, hcmd⟩, hdone⟩
  · exact .inr (.inr (.inl ⟨rfl, rfl⟩))
  · obtain ⟨rfl, hdone⟩ | hkept | ⟨hbusy, v, i, rfl, hdec, hallows, hpend⟩ :=
      applyInput_pend_cases x { s.passTurn with inputs := rest }
    · exact .inr (.inl ⟨hhost, ⟨rest, hin⟩, hdone⟩)
    · exact .inr (.inr (.inl hkept))
    · exact .inr (.inr (.inr ⟨hbusy, v, rest, i, hin, hdec, (s.phaseAllows_iff i).1 hallows, hpend⟩))

/-- Settles O37: of the four things a step can do to BUSY, one sets it and two lift it. -/
theorem busySetByIssueLiftedByPerform : Obligations.BusySetByIssueLiftedByPerform := by
  refine ⟨fun s t h hs ht => ?_, fun s t h hs ht => ?_, fun s t h hs ht => ?_⟩ <;>
    obtain ⟨hcore, hbusy, hcmd, hdone⟩ | ⟨hhost, hreset, hdone⟩ | ⟨hkept, hpend⟩ | ⟨hidle, hissue⟩ := step_pend_cases h
  · simp [hs] at hbusy
  · simp [ht] at hdone
  · simp [hs, ht] at hkept
  · exact hissue
  · exact .inl ⟨hcore, hcmd⟩
  · exact .inr ⟨hhost, hreset⟩
  · simp [hs, ht] at hkept
  · simp [hs] at hidle
  · simp [ht] at hdone
  · simp [ht] at hdone
  · exact hpend
  · simp [hs] at hidle

/-- Settles O38: a perform leaves DATA as it is, and of the inputs a write of the register and the reset input change
it. -/
theorem dataChangesOnlyByHostWrites : Obligations.DataChangesOnlyByHostWrites := by
  intro s t k h hne
  obtain ⟨-, -, i, -, hexec⟩ | ⟨-, -, rfl⟩ | ⟨hhost, x, rest, hin, rfl⟩ := step_next_cases h
  · obtain ⟨h0, h1, h2, -⟩ := exec_frame i _ t hexec
    exact absurd (State.data_congr h0 h1 h2 k) hne
  · exact absurd rfl hne
  · obtain hkept | hwrite | hreset := applyInput_data_cases x { s.passTurn with inputs := rest } k
    · exact absurd hkept hne
    · exact ⟨hhost, x, rest, hin, .inl hwrite⟩
    · exact ⟨hhost, x, rest, hin, .inr hreset⟩

/-- What a step does to `BASE` and to the lists of the host's side: its turn is used up, and only the host takes an
input (log 5, log 6). -/
theorem step_bus {s t : State} (h : step s = .next t) :
    t.base = s.base ∧ t.turns = s.passTurn.turns ∧
      (t.inputs = s.inputs ∨ (s.nextAgent = .host ∧ t.inputs = s.inputs.tail)) := by
  obtain ⟨-, -, i, -, hexec⟩ | ⟨-, -, rfl⟩ | ⟨hhost, x, rest, hin, rfl⟩ := step_next_cases h
  · obtain ⟨-, -, -, -, -, -, hbase, hinputs, hturns, -⟩ := exec_frame i _ t hexec
    exact ⟨hbase, hturns, .inl hinputs⟩
  · exact ⟨rfl, rfl, .inl rfl⟩
  · obtain ⟨hbase, hturns, htaken | hback⟩ := applyInput_bus x { s.passTurn with inputs := rest }
    · exact ⟨hbase, hturns, .inr ⟨hhost, by rw [htaken, hin]; rfl⟩⟩
    · exact ⟨hbase, hturns, .inl (by rw [hback, hin])⟩

/-- Settles O39: `step_bus`, with `passTurn` taking a turn only while `BUSY = 1`. -/
theorem stepConsumesInOrder : Obligations.StepConsumesInOrder := by
  intro s t h
  obtain ⟨hbase, hturns, hinputs⟩ := step_bus h
  refine ⟨hbase, hinputs.imp_right And.right, ?_, fun hcore => ?_⟩
  · rw [hturns, State.passTurn_turns]
    cases s.busy <;> simp
  · exact hinputs.resolve_right fun ⟨hhost, _⟩ => by simp [hcore] at hhost

end Sys2Proof.Machine
end

section
/-! PROOFS. Performs that go on and lanes that do not matter (R149, R151), whose step is next (R12, R150), and the order
of the host's accesses and the core's perform (R81, R241, R243). -/

namespace Sys2Proof.Machine

/-! ### The perform (R149, R150, R151) -/

/-- Settles O15: `afterPerform` is the state that every command answers. -/
theorem everyCommandCompletes : Obligations.EveryCommandCompletes :=
  fun i s => ⟨afterPerform i s, exec_eq i s, rfl, rfl, rfl⟩

/-- Under a mask an operand counts by its masked bits, and by its free value where it is unwritten. -/
theorem State.valueOf_and_congr {s : State} {src : Config.Source} {r : Reg} {v mask : Word}
    (h : v &&& mask = r.bits &&& mask) : s.valueOf src ⟨v, r.written⟩ &&& mask = s.valueOf src r &&& mask := by
  unfold State.valueOf
  split
  · exact h
  · rfl

theorem finalAcc_congr {m : Acc} {n : Word} {rem : Nat} {d0 d1 d2 v0 v1 v2 : Word}
    (h0 : v0 &&& tailMask 0 rem = d0 &&& tailMask 0 rem) (h1 : v1 &&& tailMask 1 rem = d1 &&& tailMask 1 rem)
    (h2 : v2 &&& tailMask 2 rem = d2 &&& tailMask 2 rem) : finalAcc m n rem v0 v1 v2 = finalAcc m n rem d0 d1 d2 := by
  simp only [finalAcc, h0, h1, h2]

/-- A perform reads PEND in the accumulators it computes and in the mark of an `undefined` operand, and nowhere else. -/
theorem afterPerform_setPend {i : Instr} {s : State} {p : Pend}
    (hacc : performAcc { s with pend := p } i = performAcc s i)
    (hundef : State.performUndefined i { s with pend := p } = s.performUndefined i) :
    afterPerform i { s with pend := p } = { afterPerform i s with pend := p } := by
  have hlen : performLen { s with pend := p } i = performLen s i := by
    cases i with
    | init | block | final _ => rfl
  simp only [afterPerform, hacc, hundef, hlen]
  rfl

/-- Settles O17: FINAL reads the operand words under the tail mask only. -/
theorem finalIgnoresUnusedLanes : Obligations.FinalIgnoresUnusedLanes := by
  intro rem s t v0 v1 v2 h0 h1 h2 h
  rw [exec_eq] at h ⊢
  cases h
  exact congrArg Host.Outcome.next (afterPerform_setPend (finalAcc_congr (State.valueOf_and_congr h0)
    (State.valueOf_and_congr h1) (State.valueOf_and_congr h2)) rfl)

/-! ### Whose step is next (R12, R150) -/

theorem step_of_nextAgent_host {s : State} (hhost : s.nextAgent = .host) : step s = .next (hostTurn s.passTurn) := by
  simp [step, turnStep, hhost]

theorem step_of_nextAgent_core {s : State} {i : Instr} (hcore : s.nextAgent = .core) (hcmd : s.pend.cmd = some i) :
    step s = exec i s.passTurn := by
  simp [step, turnStep, hcore, coreTurn, hcmd]

/-- While `BUSY = 1` the core moves unless the turn is the host's; with no turn left it moves too (R243). -/
theorem State.nextAgent_of_head?_ne_host {s : State} (hbusy : s.busy = true) (hturn : s.turns.head? ≠ some .host) :
    s.nextAgent = .core := by
  rw [State.nextAgent, if_pos hbusy]
  cases hts : s.turns with
  | nil => rfl
  | cons agent ts =>
    cases agent with
    | core => rfl
    | host => simp [hts] at hturn

theorem State.passTurn_of_busy {s : State} (h : s.busy = true) : s.passTurn = { s with turns := s.turns.tail } :=
  congrArg (fun ts => { s with turns := ts }) (if_pos h)

/-- Settles O32: unless the host's turn is next, the core performs. -/
theorem stepRunsThePendingCommand : Obligations.StepRunsThePendingCommand := by
  intro s i hbusy hcmd hturn
  rw [step_of_nextAgent_core (State.nextAgent_of_head?_ne_host hbusy hturn) hcmd, State.passTurn_of_busy hbusy]

/-- With no command pending the host's turn is free. -/
theorem State.passTurn_of_not_busy {s : State} (h : s.busy = false) : s.passTurn = s :=
  congrArg (fun ts => { s with turns := ts }) (if_neg (by simp [h]))

/-- In a turn of the host its next input is applied. -/
theorem step_of_host {s : State} {x : Input} {rest : List Input} (hhost : s.nextAgent = .host)
    (hin : s.inputs = x :: rest) : step s = .next (applyInput x { s.passTurn with inputs := rest }) := by
  rw [step_of_nextAgent_host hhost]
  simp only [hostTurn, State.passTurn_inputs, hin]

/-- Settles O33: `step_idle` and `step_host`, and a host with no input left leaves the block standing. -/
theorem stepRunsTheNextInput : Obligations.StepRunsTheNextInput := by
  refine ⟨fun s x rest hbusy hin => step_idle hbusy hin, fun s x rest ts hbusy hturns hin => step_host hbusy hturns hin,
    fun s hbusy hin => ?_⟩
  rw [step_of_nextAgent_host (State.nextAgent_of_not_busy hbusy), State.passTurn_of_not_busy hbusy]
  simp only [hostTurn, hin]

theorem decodeTableWord_of_decode {w : Nat} {i : Instr} (hw : w < 2 ^ 32)
    (hdec : decode (BitVec.ofNat 32 w) = .ok i) : decodeTableWord 32 w = some i := by
  simp only [decodeTableWord, Nat.mod_eq_of_lt hw, if_pos hw, hdec]

/-- Settles O34: a placed command stands in PEND with the core's turn next. -/
theorem placedWordRunsNext : Obligations.PlacedWordRunsNext := by
  intro s w i hw hdec
  have htable := decodeTableWord_of_decode hw hdec
  refine ⟨htable, ?_⟩
  rw [State.withFetchWord, placeWord, htable]
  exact stepRunsThePendingCommand _ i rfl rfl (by simp)

/-- BUSY stands in bit 0 of STATUS (R30). -/
theorem State.status_getLsbD_zero (s : State) : s.status.getLsbD 0 = s.busy := by
  simp [State.status]

/-- Settles O40: a POLL puts itself back while BUSY, which is bit 0 of the word it reads. -/
theorem pollWaitsForBusyClear : Obligations.PollWaitsForBusyClear := by
  intro s rest hin hhost
  rw [step_of_host hhost hin, applyInput_poll, State.status_getLsbD_zero]
  rfl

/-! ### A DATA write and the perform, in either order (R241) -/

theorem afterPerform_setData (i : Instr) (k : Fin 3) (v : Word) (s : State) :
    afterPerform i (s.setData k v) = (afterPerform i s).setData k v := by
  have h := exec_setData k v (exec_eq i s)
  rw [exec_eq] at h
  exact Host.Outcome.next.inj h

/-- The address of `DATA[k]` in the window (R51). -/
theorem wr_dataReg (base : Nat) (k : Fin 3) (v : Word) :
    wr base (dataReg k) v = .write (base + (4 + 4 * k.val)) v 32 := by
  fin_cases k <;> rfl

/-- A DATA write in a turn of the host while a command is pending (R61, R62). -/
theorem step_wr_data_busy {s : State} {rest : List Input} {ts : List Agent} (k : Fin 3) {v : Word}
    (hbusy : s.busy = true) (hturns : s.turns = .host :: ts) (hin : s.inputs = wr s.base (dataReg k) v :: rest) :
    step s = .next ((s.setData k v).setHost rest ts s.lastRead) := by
  rw [step_host hbusy hturns hin, ← State.setHost_base rest ts s.lastRead s, applyInput_wr_dataReg,
    State.setData_setHost]

@[simp] theorem State.setHost_lastRead (is : List Input) (ts : List Agent) (r : Option ReadData) (s : State) :
    (s.setHost is ts r).lastRead = r :=
  rfl

/-- Settles O21: the perform reads PEND and the write changes DATA, so the two orders give one state. -/
theorem dataWriteCommutesWithPerform : Obligations.DataWriteCommutesWithPerform := by
  intro s i k v rest ts hbusy hcmd hin
  rw [← wr_dataReg] at hin
  refine ⟨((afterPerform i s).setData k v).setHost rest ts s.lastRead, ?_, ?_, ?_, ?_, rfl⟩
  · have hwrite := step_wr_data_busy (s := s.setHost s.inputs (.host :: .core :: ts) s.lastRead) k hbusy rfl hin
    have hperform := step_core (s := (s.setData k v).setHost rest (.core :: ts) s.lastRead) (i := i)
      (by simpa using hbusy) rfl (by simpa using hcmd)
    simp only [State.setData_setHost, State.setHost_setHost, State.setHost_lastRead] at hwrite
    simp only [afterPerform_setHost, afterPerform_setData, State.setHost_setHost] at hperform
    exact (run_of_step hwrite 1).trans (run_of_step hperform 0)
  · have hperform := step_core (s := s.setHost s.inputs (.core :: ts) s.lastRead) hbusy rfl hcmd
    have hwrite := step_wr_data k (s := (afterPerform i s).setHost s.inputs ts s.lastRead) rfl hin
    simp only [afterPerform_setHost, State.setHost_setHost] at hperform
    simp only [State.setData_setHost, State.setHost_setHost, State.setHost_lastRead] at hwrite
    exact (run_of_step hperform 1).trans (run_of_step hwrite 0)
  · exact (State.setData_data (afterPerform i s) k k v).trans (if_pos rfl)
  · exact State.setData_busy k v (afterPerform i s)

/-! ### The pending command is performed (R243) -/

/-- BUSY is lifted after at most `m + 1` steps, and with no reset among the inputs by the perform of `i`, in a state `u`
where PEND is still that of `s`. -/
def LiftedWithin (i : Instr) (m : Nat) (s : State) : Prop :=
  ∃ (n : Nat) (t : State), n ≤ m ∧ Host.Core.run Sys2Proof.core (n + 1) s = .next t ∧ t.busy = false ∧
    (Input.reset ∉ s.inputs → ∃ u : State, Host.Core.run Sys2Proof.core n s = .next u ∧ u.nextAgent = .core ∧
      u.busy = true ∧ u.pend = s.pend ∧ exec i u.passTurn = .next t)

theorem liftedWithin_of_core {s : State} {i : Instr} (m : Nat) (hcore : s.nextAgent = .core) (hbusy : s.busy = true)
    (hcmd : s.pend.cmd = some i) : LiftedWithin i m s := by
  have hstep : step s = .next (afterPerform i s.passTurn) :=
    (step_of_nextAgent_core hcore hcmd).trans (exec_eq i s.passTurn)
  exact ⟨0, _, Nat.zero_le m, run_of_step hstep 0, rfl, fun _ => ⟨s, rfl, hcore, hbusy, rfl, exec_eq i _⟩⟩

/-- A reset input lifts BUSY too, by discarding the command (R231). -/
theorem liftedWithin_of_reset {s t : State} (i : Instr) (m : Nat) (hstep : step s = .next t) (ht : t.busy = false)
    (hreset : Input.reset ∈ s.inputs) : LiftedWithin i m s :=
  ⟨0, t, Nat.zero_le m, run_of_step hstep 0, ht, fun hno => absurd hreset hno⟩

theorem LiftedWithin.of_step {s t : State} {i : Instr} {m : Nat} (h : LiftedWithin i m t) (hstep : step s = .next t)
    (hpend : t.pend = s.pend) (hinputs : t.inputs ⊆ s.inputs) : LiftedWithin i (m + 1) s := by
  obtain ⟨n, v, hle, hrun, hlifted, hperform⟩ := h
  refine ⟨n + 1, v, Nat.succ_le_succ hle, (run_of_step hstep _).trans hrun, hlifted, fun hno => ?_⟩
  obtain ⟨u, hu, hcore, hbusy, hkept, hexec⟩ := hperform fun hmem => hno (hinputs hmem)
  exact ⟨u, (run_of_step hstep n).trans hu, hcore, hbusy, hkept.trans hpend, hexec⟩

/-- By induction on the turns: a turn of the host leaves BUSY and PEND, or takes the reset input. -/
theorem liftedWithin_turns {i : Instr} (ts : List Agent) : ∀ s : State, s.turns = ts → s.busy = true →
    s.pend.cmd = some i → LiftedWithin i ts.length s := by
  induction ts with
  | nil =>
    exact fun s hturns hbusy hcmd =>
      liftedWithin_of_core _ (State.nextAgent_of_head?_ne_host hbusy (by simp [hturns])) hbusy hcmd
  | cons agent ts ih =>
    intro s hturns hbusy hcmd
    have hagent : s.nextAgent = agent := by simp [State.nextAgent, hbusy, hturns]
    cases agent with
    | core => exact liftedWithin_of_core _ hagent hbusy hcmd
    | host =>
      have hstep := step_of_nextAgent_host hagent
      obtain ⟨-, hts, hinputs⟩ := step_bus hstep
      obtain ⟨hcore, -⟩ | ⟨-, ⟨rest, hreset⟩, ht⟩ | ⟨hkept, hpend⟩ | ⟨hidle, -⟩ := step_pend_cases hstep
      · simp [hagent] at hcore
      · exact liftedWithin_of_reset i _ hstep ht (by simp [hreset])
      · refine (ih (hostTurn s.passTurn) ?_ (hkept.trans hbusy) (hpend ▸ hcmd)).of_step hstep hpend ?_
        · simp [hts, hbusy, hturns]
        · obtain hsame | ⟨-, htail⟩ := hinputs
          · exact hsame ▸ List.Subset.refl s.inputs
          · exact htail ▸ List.tail_subset s.inputs
      · simp [hbusy] at hidle

/-- Settles O44: the invariant has a command in PEND, and the turns are used up one by one. -/
theorem pendingCommandIsPerformed : Obligations.PendingCommandIsPerformed := by
  intro s hinv hbusy
  obtain ⟨i, hcmd, -⟩ := hinv.busy_pending hbusy
  obtain ⟨n, t, hle, hrun, ht, hperform⟩ := liftedWithin_turns s.turns s rfl hbusy hcmd
  refine ⟨n, t, hle, hrun, ht, fun hno => ?_⟩
  obtain ⟨u, hu, hcore, hub, hpend, hexec⟩ := hperform hno
  exact ⟨u, i, hu, hcore, hub, hpend, hcmd, hexec⟩

end Sys2Proof.Machine
end

section
/-! PROOFS. The bits of unwritten registers (R34, R232 of 70_reset_and_hazards.md): every operation of a step commutes
with erasing them. -/

namespace Sys2Proof.Machine

/-! ### Reading a register with its bits erased -/

@[simp] theorem Reg.erase_read? (r : Reg) : r.erase.read? = r.read? := by
  cases hw : r.written <;> simp [Reg.erase, Reg.read?, hw]

@[simp] theorem Reg.erase_written (r : Reg) : r.erase.written = r.written := by
  cases hw : r.written <;> simp [Reg.erase, hw]

/-- A perform computes from a written register, or draws a value in place of the bits (log 1, log 2). -/
theorem State.erase_valueOf (s : State) (src : Config.Source) (r : Reg) :
    s.erase.valueOf src r.erase = s.valueOf src r := by
  cases hw : r.written <;> simp [State.valueOf, Reg.erase, hw, State.erase]

section
variable (s : State)

@[simp] theorem State.erase_a : s.erase.a = s.a.erase := rfl
@[simp] theorem State.erase_b : s.erase.b = s.b.erase := rfl
@[simp] theorem State.erase_c : s.erase.c = s.c.erase := rfl
@[simp] theorem State.erase_len : s.erase.len = s.len.erase := rfl
@[simp] theorem State.erase_data0 : s.erase.data0 = s.data0.erase := rfl
@[simp] theorem State.erase_data1 : s.erase.data1 = s.data1.erase := rfl
@[simp] theorem State.erase_data2 : s.erase.data2 = s.data2.erase := rfl
@[simp] theorem State.erase_pend :
    s.erase.pend = ⟨s.pend.cmd, s.pend.d0.erase, s.pend.d1.erase, s.pend.d2.erase⟩ := rfl
@[simp] theorem State.erase_base : s.erase.base = s.base := rfl
@[simp] theorem State.erase_inputs : s.erase.inputs = s.inputs := rfl
@[simp] theorem State.erase_status : s.erase.status = s.status := rfl
@[simp] theorem State.erase_ready : s.erase.ready = s.ready := rfl
@[simp] theorem State.erase_resultReady : s.erase.resultReady = s.resultReady := rfl

end

/-! ### The host's accesses -/

theorem acceptCmd_erase (i : Instr) (s : State) : acceptCmd i s.erase = (acceptCmd i s).erase := by
  unfold acceptCmd
  split <;> rfl

/-- No check of an issue reads a register that can be unwritten (R141). -/
theorem issueCmd_erase (w : Word) (s : State) : issueCmd w s.erase = (issueCmd w s).erase := by
  obtain ⟨hbusy, h⟩ | ⟨hbusy, hdec, h⟩ | ⟨hbusy, ⟨i, hdec, hphase⟩, h⟩ | ⟨hbusy, i, hdec, hphase, h⟩ :=
    issueCmd_cases w s
  · rw [h, issueCmd_of_busy w (by exact hbusy)]
    rfl
  · rw [h, issueCmd_of_illegal (by exact hbusy) hdec]
    rfl
  · obtain ⟨hinit, hactive⟩ := (s.phaseAllows_eq_false_iff i).1 hphase
    rw [h, issueCmd_of_wrong_phase (by exact hbusy) hdec hinit (by exact hactive)]
    rfl
  · rw [h, issueCmd_of_accepted (by exact hbusy) hdec (by exact (s.phaseAllows_iff i).1 hphase), acceptCmd_erase]

theorem setData_erase (k : Fin 3) (v : Word) (s : State) : s.erase.setData k v = (s.setData k v).erase := by
  fin_cases k <;> rfl

theorem writeOffset_erase (off : Offset) (v : Word) (wd : Nat) (s : State) :
    writeOffset off v wd s.erase = (writeOffset off v wd s).erase := by
  by_cases hform : wd ≠ 32 ∨ off.toNat % 4 ≠ 0
  · rw [writeOffset_of_badForm hform, writeOffset_of_badForm hform]
    rfl
  by_cases hhigh : 0x10 ≤ off.toNat
  · rw [writeOffset_of_readOnly hhigh, writeOffset_of_readOnly hhigh]
    rfl
  obtain ⟨rfl, halign⟩ : wd = 32 ∧ off.toNat % 4 = 0 := by simpa using hform
  obtain hcmd | ⟨k, hdata⟩ := Offset.cmd_or_data halign (by omega)
  · rw [writeOffset_cmd hcmd, writeOffset_cmd hcmd, issueCmd_erase]
  · rw [writeOffset_data hdata, writeOffset_data hdata, setData_erase]

/-- A read of an unwritten register answers `undefined` and not its bits (R34, R171). -/
theorem readOffset_erase (off : Offset) (wd : Nat) (s : State) : readOffset off wd s.erase = readOffset off wd s := by
  simp [readOffset]

theorem answerRead_erase (ans : Option Word) (s : State) : answerRead ans s.erase = (answerRead ans s).erase := by
  cases ans <;> rfl

theorem poll_erase (s : State) : poll s.erase = (poll s).erase := by
  rw [poll_eq, poll_eq]
  rfl

theorem applyInput_erase (x : Input) (s : State) : applyInput x s.erase = (applyInput x s).erase := by
  cases x with
  | write addr v wd =>
    cases h : windowOffset s.base addr with
    | none => simp [applyInput, busWrite, h]
    | some off => simp [applyInput, busWrite, h, writeOffset_erase]
  | read addr wd =>
    cases h : windowOffset s.base addr with
    | none => simp [applyInput, busRead, h]
    | some off => simp [applyInput, busRead, h, readOffset_erase, answerRead_erase]
  | poll => exact poll_erase s
  | reset => rfl

/-! ### The perform -/

theorem performUndefined_erase (i : Instr) (s : State) : s.erase.performUndefined i = s.performUndefined i := by
  simp [State.performUndefined, State.accWritten]

theorem performAcc_erase (i : Instr) (s : State) : performAcc s.erase i = performAcc s i := by
  have hacc : s.erase.acc = s.acc := by simp [State.acc, State.erase_valueOf]
  have hlen : s.erase.length = s.length := s.erase_valueOf .len s.len
  have h0 : s.erase.operand0 = s.operand0 := s.erase_valueOf .operand0 s.pend.d0
  have h1 : s.erase.operand1 = s.operand1 := s.erase_valueOf .operand1 s.pend.d1
  have h2 : s.erase.operand2 = s.operand2 := s.erase_valueOf .operand2 s.pend.d2
  cases i <;> simp only [performAcc, hacc, hlen, h0, h1, h2]

theorem performLen_erase (i : Instr) (s : State) : performLen s.erase i = performLen s i := by
  have hlen : s.erase.length = s.length := s.erase_valueOf .len s.len
  cases i <;> simp only [performLen, hlen]

theorem afterPerform_erase (i : Instr) (s : State) : afterPerform i s.erase = (afterPerform i s).erase := by
  simp only [afterPerform, performAcc_erase, performLen_erase, performUndefined_erase]
  rfl

/-! ### The step -/

/-- What a step answers, with the bits of its next state erased. -/
def eraseOutcome : Host.Outcome State Fault Refusal → Host.Outcome State Fault Refusal
  | .next t => .next t.erase
  | .fault r => .fault r
  | .refused r => .refused r

theorem hostTurn_erase (s : State) : hostTurn s.erase = (hostTurn s).erase := by
  cases hin : s.inputs with
  | nil => simp [hostTurn, hin]
  | cons x rest =>
    simp only [hostTurn, State.erase_inputs, hin]
    exact applyInput_erase x { s with inputs := rest }

theorem step_of_empty_latch {s : State} (hcore : s.nextAgent = .core) (hnone : s.pend.cmd = none) :
    step s = .fault .emptyLatch := by
  simp [step, turnStep, hcore, coreTurn, hnone]

theorem step_erase (s : State) : step s.erase = eraseOutcome (step s) := by
  obtain ⟨hhost, h⟩ | ⟨hcore, -, i, hcmd, h⟩ | ⟨hcore, -, hnone, h⟩ := step_cases s
  · rw [h, step_of_nextAgent_host (by exact hhost)]
    exact congrArg Host.Outcome.next (hostTurn_erase s.passTurn)
  · rw [h, step_of_nextAgent_core (by exact hcore) (by exact hcmd), exec_eq, exec_eq]
    exact congrArg Host.Outcome.next (afterPerform_erase i s.passTurn)
  · rw [h, step_of_empty_latch (by exact hcore) (by exact hnone)]
    rfl

/-- Settles O45: the two states have one erasure, and the step of the erasure is the erasure of either step. -/
theorem unwrittenBitsNeverMatter : Obligations.UnwrittenBitsNeverMatter := by
  intro s s' t heq h
  have herased : eraseOutcome (step s') = .next t.erase := by
    rw [← step_erase, ← heq, step_erase, h]
    rfl
  cases hstep : step s' with
  | next t' =>
    rw [hstep] at herased
    exact ⟨t', rfl, (Host.Outcome.next.inj herased).symm⟩
  | fault r | refused r =>
    rw [hstep] at herased
    cases herased

end Sys2Proof.Machine
end

section
/-! PROOFS. The reference function on whole blocks and on the empty message (R102, R109 of 40_reference_function.md),
and the HASH pseudo-instruction (R82, R111 of 30_encoding.md). -/

namespace Sys2Proof.Machine

/-- Settles O48: `absorbLoop_eq`, and what the whole blocks leave is the remainder. -/
theorem blockLoopAbsorbsWholeBlocks : Obligations.BlockLoopAbsorbsWholeBlocks :=
  fun msg seed => ⟨absorbLoop_eq msg seed, by omega, Nat.mod_lt _ (by decide)⟩

/-- An empty tail adds nothing (R104). -/
theorem tailMerge_zero (msg : List Byte) (pos : Nat) (m : Acc) : tailMerge msg pos 0 m = m := by
  simp only [tailMerge, tailTerm_of_le (Nat.zero_le _)]

theorem foldLength_zero (m : Acc) : foldLength 0 m = m := by
  simp [foldLength]

/-- Settles O51: no block, no length and no tail are left to add, so the seed goes into the last mix as it is. -/
theorem emptyMessageIsOneMix : Obligations.EmptyMessageIsOneMix := by
  intro s
  have hacc : hashAcc [] s = mix (hashInit s) := by
    rw [hashAcc, absorbLoop_eq]
    exact congrArg mix ((tailMerge_zero [] 0 _).trans (foldLength_zero _))
  exact congrArg Acc.c hacc

/-! ### The HASH pseudo-instruction -/

/-- The words that HASH writes for the tail hold its bytes (R76, R82). -/
theorem lane_tailWord_of_tail (msg : List Byte) (k : Fin 3) (j : Nat) (hj : j < 4)
    (hin : 4 * k.val + j < msg.length % 12) :
    some (lane (tailWord msg (12 * (msg.length / 12)) (msg.length % 12) k.val) j) =
      msg[12 * (msg.length / 12) + (4 * k.val + j)]? := by
  obtain ⟨-, htail, -⟩ := operandWordsAreLittleEndian
  obtain ⟨hlane, -⟩ := htail msg (12 * (msg.length / 12)) (msg.length % 12) k.val j hj (by omega)
  rw [hlane hin, Nat.add_assoc]

/-- `RD <reg>` (R81) reads at the register's offset. -/
theorem applyInput_rd (r : RegName) (s : State) :
    applyInput (rd s.base r) s = answerRead (readOffset (BitVec.ofNat 6 (regOffset r)) 32 s) s := by
  have hoff : regOffset r = (BitVec.ofNat 6 (regOffset r)).toNat := by cases r <;> rfl
  exact busRead_of_window 32 ((windowOffset_eq_some _ _ _).2 (congrArg (s.base + ·) hoff))

/-- At the end of a hash `RD RESULT` answers `C`. -/
theorem HashRun.step_rd_result {s t : State} {m : Acc} {n : Word} {rest : List Input}
    (h : HashRun s .done m n (rd s.base .result :: rest) t) :
    step t = .next (t.setHost rest t.turns (some (.value m.c))) := by
  have hread : readOffset (BitVec.ofNat 6 (regOffset .result)) 32 (t.setHost rest t.turns t.lastRead) = some m.c :=
    h.read_result
  rw [step_idle h.busy h.inputs, ← h.base, ← State.setHost_base rest t.turns t.lastRead t, applyInput_rd, hread]
  rfl

/-- HASH (R82) comes to the answer `Hash(msg, seed)` with no fault newly marked. -/
theorem run_asmHash {s : State} {msg : List Byte} {seed : Word} {rest : List Input} (hbusy : s.busy = false)
    (hin : s.inputs = asmHash s.base msg seed ++ rest) :
    ∃ (n : Nat) (t : State), Host.Core.run Sys2Proof.core n s = .next t ∧ t.inputs = rest ∧
      t.lastRead = some (.value (referenceHash msg seed)) ∧ t.mark = s.mark := by
  rw [asmHash, List.append_assoc] at hin
  obtain ⟨t, h⟩ := hashRun_canonicalSequence hbusy (T := fun k => tailWord msg _ _ k.val)
    (lane_tailWord_of_tail msg) hin
  obtain ⟨n, hrun⟩ := exists_run_of_reaches (h.reached.tail h.step_rd_result)
  exact ⟨n, _, hrun, rfl, rfl, h.mark⟩

/-- Settles O54: HASH without a seed is HASH with the seed 0 (R111). -/
theorem hashPseudoInstructionReadsHash : Obligations.HashPseudoInstructionReadsHash :=
  fun _ _ _ hbusy => ⟨fun _ hin => run_asmHash hbusy hin, fun hin => run_asmHash hbusy hin⟩

end Sys2Proof.Machine
end

section
/-! PROOFS. The 64-byte window (R50, R179 of 43_host_access.md), the blocks of a platform (R64 of 20_memory.md), and the
decoder (R75 of 30_encoding.md, 95_test_vectors.md section 2.2). -/

namespace Sys2Proof.Machine

/-! ### The window -/

theorem windowOffset_eq_none {base addr : Nat} (h : addr < base ∨ base + 64 ≤ addr) : windowOffset base addr = none :=
  if_neg (by unfold Config.windowBytes; omega)

theorem busWrite_of_outside {s : State} {addr : Nat} (v : Word) (wd : Nat) (h : windowOffset s.base addr = none) :
    busWrite addr v wd s = s := by
  simp only [busWrite, h]

theorem busWrite_of_window {s : State} {addr : Nat} {off : Offset} (v : Word) (wd : Nat)
    (h : windowOffset s.base addr = some off) : busWrite addr v wd s = writeOffset off v wd s := by
  simp only [busWrite, h]

/-- Settles O26: an address is `BASE` plus an offset or it is outside the window. -/
theorem accessesOutsideTheWindow : Obligations.AccessesOutsideTheWindow :=
  ⟨windowOffset_eq_some,
    fun _ _ v wd h =>
      ⟨busWrite_of_outside v wd (windowOffset_eq_none h), busRead_of_outside wd (windowOffset_eq_none h)⟩,
    fun s off v wd =>
      ⟨busWrite_of_window v wd (windowOffset_base s.base off), busRead_of_window wd (windowOffset_base s.base off)⟩⟩

/-! ### The platform -/

/-- Two aligned windows that share an address are one window. -/
theorem base_eq_of_windowOffset {b c addr : Nat} {off off' : Offset} (hb : b % 64 = 0) (hc : c % 64 = 0)
    (h : windowOffset b addr = some off) (h' : windowOffset c addr = some off') : b = c := by
  rw [windowOffset_eq_some] at h h'
  have hlt : off.toNat < 64 := off.isLt
  have hlt' : off'.toNat < 64 := off'.isLt
  omega

/-- On a well-formed platform an address in one block's window is outside the window of every other (R7, R64). -/
theorem Platform.windowOffset_other {p : Platform} {k j : Nat} {s u : State} {addr : Nat} {off : Offset}
    (hwf : p.wf = true) (hk : p.blocks[k]? = some s) (hj : p.blocks[j]? = some u)
    (h : windowOffset s.base addr = some off) (hne : j ≠ k) : windowOffset u.base addr = none := by
  simp only [Platform.wf, Bool.and_eq_true, List.all_eq_true, beq_iff_eq, decide_eq_true_eq] at hwf
  obtain ⟨⟨-, haligned⟩, hnodup⟩ := hwf
  cases hu : windowOffset u.base addr with
  | none => rfl
  | some off' =>
    have hbase : u.base = s.base := base_eq_of_windowOffset (haligned u (List.mem_of_getElem? hj))
      (haligned s (List.mem_of_getElem? hk)) hu h
    have hlen : j < (p.blocks.map State.base).length := by
      rw [List.length_map]
      exact (List.getElem?_eq_some_iff.1 hj).1
    exact absurd ((List.getElem?_inj hlen hnodup).1 (by simp [hj, hk, hbase])) hne

/-- An access leaves every block alone but the one whose window holds the address. -/
theorem Platform.getElem?_map_other {p : Platform} {k j : Nat} {s : State} {addr : Nat} {off : Offset}
    {f : State → State} (hf : ∀ u : State, windowOffset u.base addr = none → f u = u) (hwf : p.wf = true)
    (hk : p.blocks[k]? = some s) (h : windowOffset s.base addr = some off) (hne : j ≠ k) :
    (p.blocks.map f)[j]? = p.blocks[j]? := by
  rw [List.getElem?_map]
  cases hj : p.blocks[j]? with
  | none => rfl
  | some u => exact congrArg some (hf u (Platform.windowOffset_other hwf hk hj h hne))

/-- A step of block `k` replaces that block, if there is one. -/
theorem Platform.stepAt_other {p q : Platform} {k j : Nat} (h : p.stepAt k = .next q) (hne : j ≠ k) :
    q.blocks[j]? = p.blocks[j]? := by
  unfold Platform.stepAt at h
  split at h
  · cases h
    rfl
  · split at h
    · cases h
      exact List.getElem?_set_ne hne.symm
    · cases h
    · cases h

/-- Settles O55: a step replaces one block of the list, and an access acts on the block whose window holds the
address. -/
theorem platformBlocksAreIndependent : Obligations.PlatformBlocksAreIndependent := by
  refine ⟨fun p q k j h hne => Platform.stepAt_other h hne, fun p k j s addr v wd off hwf hk h hne => ⟨?_, ?_, ?_, ?_⟩⟩
  · exact Platform.getElem?_map_other (fun u hu => busWrite_of_outside v wd hu) hwf hk h hne
  · exact Platform.getElem?_map_other (fun u hu => busRead_of_outside wd hu) hwf hk h hne
  · rw [Platform.busWrite, List.getElem?_map, hk, Option.map_some, busWrite_of_window v wd h]
  · rw [Platform.busRead, List.getElem?_map, hk, Option.map_some, busRead_of_window wd h]

end Sys2Proof.Machine

namespace Sys2Proof

/-! ### The decode table -/

/-- Settles O1: thirteen fixed words, each decoded. -/
theorem decodeTableWords : Obligations.DecodeTableWords := by
  unfold Obligations.DecodeTableWords
  decide

/-- Settles O4: the decoder answers exactly the commands whose encoding is the word. -/
theorem decodeEncodeAgree : Obligations.DecodeEncodeAgree :=
  ⟨fun _ hwf => decode_encode hwf, fun w i h => ⟨decode_wf w i h, (encode_of_decode h).symm⟩⟩

end Sys2Proof
end
